-- ==== Sys2Proof/Word.lean ====
section
/-! DEFINITION. The widths of the block's values (10_state.md R20, 20_memory.md R50 to R53). -/

namespace Sys2Proof

/-- One byte of the stream, or of the payload buffer. -/
abbrev Byte := BitVec 8

/-- One 16-bit payload word `W[k]` (R52, R82). -/
abbrev PayloadWord := BitVec 16

/-- One 32-bit register of the register space (R50). -/
abbrev RegWord := BitVec 32

/-- An 8-bit word address of the register space (R55). -/
abbrev RegAddr := BitVec 8

/-- A pulse width, the 10-bit raw value doubled (R84). -/
abbrev PulseWidth := BitVec 11

/-- The channel id field of a word, bits 14:10 (R85). -/
abbrev ChannelId := BitVec 5

/-- The 14 payload bytes in reception order (R23). -/
abbrev Payload := Vector Byte 14

end Sys2Proof
end

