-- ==== Sys2Proof/Config.lean ====
section
/-! DEFINITION. The parameters of 00_scope.md R5. Every one has the single value given there but ID0_POLICY, which is a named
parameter of the model (R6) and is held in State.id0Policy (log 2). -/

namespace Sys2Proof

/-- What a valid id=0 half-frame does to the slots it does not name (R5, R6, 41_decode.md R144, decision D11). -/
inductive Id0Policy where
  | replace  -- the default: every slot is emptied first
  | merge    -- the other slots keep their values
deriving DecidableEq, Repr

namespace Config

/-- ID0_POLICY's default (R5, R6). -/
def id0Default : Id0Policy := .replace
/-- PAYLOAD_LEN: payload bytes in a frame. -/
abbrev payloadLen : Nat := 14
/-- WORDS: 16-bit words in a payload. -/
abbrev words : Nat := 7
/-- NUM_CH: channel slots, ids 0 to 13. -/
abbrev numCh : Nat := 14
/-- SYNC_BYTE: the value of each of the two sync bytes. -/
abbrev syncByte : Byte := 0x00#8
/-- PW_MIN: the smallest valid pulse width, inclusive. -/
abbrev pwMin : Nat := 172
/-- PW_MAX: the largest valid pulse width, inclusive. -/
abbrev pwMax : Nat := 1810
/-- NORM_CENTER: subtracted before normalization. -/
abbrev normCenter : Int := 991
/-- NORM_SCALE: the divisor of normalization. -/
abbrev normScale : Nat := 819
/-- MISSING_PW: the pulse width assumed for a slot never populated. -/
abbrev missingPw : PulseWidth := 0#11
/-- HALF_COUNT: the count one valid half-frame contributes. -/
abbrev halfCount : Nat := 7
/-- COMPLETE_COUNT: the count that makes a completion. -/
abbrev completeCount : BitVec 5 := 14#5
/-- CUC_SAT: the ceiling of the saturating counter (decision D13). -/
abbrev cucSat : Nat := 31

end Config

end Sys2Proof
end

