-- ==== Sys2Proof/Machine/State.lean ====
section
/-! DEFINITION. The state of the block (10_state.md R20 to R28), the model's own fields beside it, the two reason types, and the
state after reset (70_reset_and_hazards.md R270). -/

namespace Sys2Proof.Machine

/-- What the environment drives on the block's input ports in one step (43_host.md R210). -/
structure Pins where
  rst : Bool
  inValid : Bool
  inData : Byte
  regRe : Bool
  regWe : Bool
  regAddr : RegAddr
  regWdata : RegWord
deriving DecidableEq, Repr

/-- The values LaneDecode returns for one payload word: CHID, PW and V (41_decode.md R141). -/
structure Lane where
  chid : ChannelId
  pw : PulseWidth
  valid : Bool
deriving DecidableEq, Repr

/-- The block's eight state elements (R20), and after them the model's own fields.

* `id0Policy` is the parameter ID0_POLICY (R6, R36); no operation writes it (log 2).
* `lanes` holds the values inside a decode between DECODE_WORD and the commit that uses them; "values inside the step, not
  state" (R140), so it is empty between steps (log 3).
* `inReady` and `regRdata` are what the outputs of those names showed in the latest step (R210, R213; log 4).
* `inputs` is what the environment drives in the coming steps, the next step first (R36; log 1). -/
structure State where
  /-- SYNC (R21). -/
  sync : BitVec 2
  /-- PBC (R22). -/
  pbc : BitVec 4
  /-- PBUF[0..13] (R23). -/
  pbuf : Payload
  /-- CH_POP[0..13] (R24). -/
  chPop : Vector Bool 14
  /-- CH_PW[0..13] (R25). -/
  chPw : Vector PulseWidth 14
  /-- CUC (R26). -/
  cuc : BitVec 5
  /-- FRAME_READY (R27). -/
  frameReady : Bool
  /-- HOLD (R28). -/
  hold : Bool
  id0Policy : Id0Policy
  lanes : List Lane
  inReady : Bool
  regRdata : RegWord
  inputs : List Pins
deriving DecidableEq, Repr

/-- SYNC's codes (R21, decision D8). The fourth, 0b11, is illegal. -/
abbrev syncIdle : BitVec 2 := 0b00#2
/-- GotFirstSyncByte (R21). -/
abbrev syncGotFirst : BitVec 2 := 0b01#2
/-- InPayload (R21). -/
abbrev syncInPayload : BitVec 2 := 0b10#2
/-- The illegal code (R21, 40_sync.md R118). -/
abbrev syncIllegal : BitVec 2 := 0b11#2

/-- The reasons a step faults: none. "No operation of the block raises an exception, traps, faults, halts, or signals an error"
(60_exceptions.md R240), so the type has no constructor (log 10). -/
inductive Fault where
deriving DecidableEq, Repr

/-- The reasons a step is refused. R240 gives the block none; no run of the model meets either (log 10). -/
inductive Refusal where
  /-- Raised by an arm of exec whose instruction has no meaning yet; safe. No arm of this model raises it. -/
  | notModelled (mnemonic : String)
  /-- Raised by the step if no row of the table fitted a key; safe. It cannot happen: "every key value matches some row" (R86). -/
  | noRowFits
deriving DecidableEq, Repr

/-- The payload buffer as reset and BYTE_SYNC2 leave it, every byte 0x00 (R23, decision D18). -/
def clearedPayload : Payload := Vector.replicate 14 0x00#8

/-- CH_POP with no slot populated (R24). -/
def nonePopulated : Vector Bool 14 := Vector.replicate 14 false

/-- CH_PW with MISSING_PW in every slot (R25, decision D16). -/
def allMissing : Vector PulseWidth 14 := Vector.replicate 14 Config.missingPw

/-- The machine right after reset (R270): every element of the block as R21 to R28 give it. The outputs are those of a reset step
(in_ready 0 and reg_rdata 0, R270), the parameter has its default (R6) and the environment drives nothing yet (log 1 to 4). -/
def State.reset : State where
  sync := syncIdle
  pbc := 0#4
  pbuf := clearedPayload
  chPop := nonePopulated
  chPw := allMissing
  cuc := 0#5
  frameReady := false
  hold := false
  id0Policy := Config.id0Default
  lanes := []
  inReady := false
  regRdata := 0#32
  inputs := []

end Sys2Proof.Machine
end

