-- ==== Sys2Proof/Machine/Ops.lean ====
section
/-! DEFINITION. The named operations over the state: one write per element (10_state.md R20), and the writes the commits share.
Every meaning is a composition of these, so that their lemmas (Laws/State.lean) carry every proof about a field. -/

namespace Sys2Proof.Machine

/-- What one operation or one step answers. -/
abbrev Result := Host.Outcome State Fault Refusal

/-- `SYNC <- v`. -/
def State.setSync (s : State) (v : BitVec 2) : State := { s with sync := v }
/-- `PBC <- v`. -/
def State.setPbc (s : State) (v : BitVec 4) : State := { s with pbc := v }
/-- `PBUF <- v`, whole. -/
def State.setPbuf (s : State) (v : Payload) : State := { s with pbuf := v }
/-- `CH_POP <- v`, whole. -/
def State.setChPop (s : State) (v : Vector Bool 14) : State := { s with chPop := v }
/-- `CH_PW <- v`, whole. -/
def State.setChPw (s : State) (v : Vector PulseWidth 14) : State := { s with chPw := v }
/-- `CUC <- v`. -/
def State.setCuc (s : State) (v : BitVec 5) : State := { s with cuc := v }
/-- `FRAME_READY <- v`. -/
def State.setFrameReady (s : State) (v : Bool) : State := { s with frameReady := v }
/-- `HOLD <- v`. -/
def State.setHold (s : State) (v : Bool) : State := { s with hold := v }
/-- The lane values inside a decode (41_decode.md R140). -/
def State.setLanes (s : State) (v : List Lane) : State := { s with lanes := v }
/-- The output in_ready of this step (43_host.md R211). -/
def State.setInReady (s : State) (v : Bool) : State := { s with inReady := v }
/-- The output reg_rdata of this step (43_host.md R213). -/
def State.setRegRdata (s : State) (v : RegWord) : State := { s with regRdata := v }
/-- What the environment drives from the next step on. -/
def State.setInputs (s : State) (v : List Pins) : State := { s with inputs := v }

/-- `PBUF[j] <- b` (40_sync.md R115, R116). PBUF has no element 14 or above; no step writes one (log 6). -/
def State.writePayload (s : State) (j : Nat) (b : Byte) : State := s.setPbuf (s.pbuf.setIfInBounds j b)

/-- `for j in 0..13: PBUF[j] <- 0x00` (40_sync.md R113). -/
def State.clearPayload (s : State) : State := s.setPbuf clearedPayload

/-- `for c in 0..13: CH_POP[c] <- 0; CH_PW[c] <- 0` (41_decode.md R144 under REPLACE). -/
def State.emptyStore (s : State) : State := (s.setChPop nonePopulated).setChPw allMissing

/-- `CH_POP[CHID] <- 1; CH_PW[CHID] <- PW` for one lane (41_decode.md R144, R145). The store has no slot 14 or above; no step
commits such a lane, since it is not valid (R151; log 6). -/
def State.storeLane (s : State) (l : Lane) : State :=
  (s.setChPop (s.chPop.setIfInBounds l.chid.toNat true)).setChPw (s.chPw.setIfInBounds l.chid.toNat l.pw)

/-- The lanes of the half-frame written in increasing word order, so that a later lane overwrites an earlier one (R147). -/
def State.storeLanes (s : State) : State := s.lanes.foldl State.storeLane s

/-- One more lane decoded (R140, in increasing k). -/
def State.pushLane (s : State) (l : Lane) : State := s.setLanes (s.lanes ++ [l])

/-- CH_POP[c]; false for a c that is no slot. -/
def State.populated (s : State) (c : Nat) : Bool := s.chPop[c]?.getD false

/-- CH_PW[c]; MISSING_PW for a c that is no slot. -/
def State.slotPw (s : State) (c : Nat) : PulseWidth := s.chPw[c]?.getD Config.missingPw

/-- The output frame_ready_o (43_host.md R219). -/
def State.frameReadyOut (s : State) : Bool := s.frameReady

/-- The output hold_o (43_host.md R219). -/
def State.holdOut (s : State) : Bool := s.hold

/-- One operation after another, in the textual order of a step (00_scope.md R8, 43_host.md R213). -/
def andThen (r : Result) (f : State → Result) : Result :=
  match r with
  | .next s => f s
  | .fault e => .fault e
  | .refused e => .refused e

end Sys2Proof.Machine
end

