-- ==== Sys2Proof/Machine/Operands.lean ====
section
/-! DEFINITION. The values operations read: the words of a payload and their fields (30_encoding.md R82 to R85, 41_decode.md
R140 to R142), the normalizer (42_store.md R181 to R183) and the register views of the state (10_state.md R32, 42_store.md R184 to
R187, 20_memory.md R58). Nothing here writes state. -/

namespace Sys2Proof.Machine

/-- Byte j of a payload. -/
def payloadByte (p : Payload) (j : Nat) : Byte := p[j]?.getD 0x00#8

/-- `W[k] = {P[2k], P[2k+1]}`: the byte received first is the most significant (20_memory.md R52). -/
def payloadWord (p : Payload) (k : Nat) : PayloadWord := payloadByte p (2 * k) ++ payloadByte p (2 * k + 1)

/-- The seven words in reception order (R52). -/
def payloadWords (p : Payload) : List PayloadWord := (List.range Config.words).map (payloadWord p)

/-- `MID = P[0][7]` (30_encoding.md R83). -/
def payloadMid (p : Payload) : Bool := (payloadByte p 0).getLsbD 7

/-- `CHID = w[14:10]` (R85). -/
def wordChid (w : PayloadWord) : ChannelId := w.extractLsb' 10 5

/-- `RAW = w[9:0]` (R82). -/
def wordRaw (w : PayloadWord) : BitVec 10 := w.extractLsb' 0 10

/-- `PW = zext_11(w[9:0]) * 2` (R84). -/
def wordPw (w : PayloadWord) : PulseWidth := (wordRaw w).zeroExtend 11 * 2#11

/-- `V = (172 <= PW) and (PW <= 1810) and (CHID < 14)` (R141). -/
def wordValid (w : PayloadWord) : Bool :=
  decide (Config.pwMin ≤ (wordPw w).toNat) && decide ((wordPw w).toNat ≤ Config.pwMax)
    && decide ((wordChid w).toNat < Config.numCh)

/-- LaneDecode (R141). -/
def laneDecode (w : PayloadWord) : Lane := ⟨wordChid w, wordPw w, wordValid w⟩

/-- `ALLV`: every lane is valid (R142). -/
def allValid (ls : List Lane) : Bool := ls.all (fun l => l.valid)

/-- The HALF key `{MID, ALLV}` (R86). -/
def halfKey (mid allv : Bool) : BitVec 2 := BitVec.ofBool mid ++ BitVec.ofBool allv

/-- `PWEFF(c) = CH_PW[c] if CH_POP[c] = 1, else MISSING_PW` (42_store.md R181). -/
def State.pwEff (s : State) (c : Nat) : PulseWidth := if s.populated c then s.slotPw c else Config.missingPw

/-- `OFS(c) = PWEFF(c) - 991`, exact (R182). -/
def State.ofs (s : State) (c : Nat) : Int := (s.pwEff c).toNat - Config.normCenter

/-- The quotient n / d of two naturals rounded to the nearest, ties to even. -/
def roundedQuotient (n d : Nat) : Nat :=
  let q := n / d
  let r := n % d
  if d < 2 * r || (2 * r == d && q % 2 == 1) then q + 1 else q

/-- The power k with 2^52 <= n * 2^k / d < 2^53, for positive n and d with n / d below 2^52. -/
def significandScale (n d : Nat) : Nat :=
  let k := 53 + d.log2 - n.log2
  if d * 2 ^ 53 ≤ n * 2 ^ k then k - 1 else k

/-- The 63 low bits of bits64(RNE64(n / d)) for positive n and d, where the result is a normal number: biased exponent, then the
52 fraction bits. The significand, rounded once, lies in [2^52, 2^53]; adding it to (exponent - 1) * 2^52 carries a significand
of 2^53 into the exponent. PRESUMED: binary64 and its rounding (00_scope.md R9, 93_implementation_defined.md G1; log 8). -/
def magnitude64 (n d : Nat) : Nat :=
  let k := significandScale n d
  (1074 - k) * 2 ^ 52 + roundedQuotient (n * 2 ^ k) d

/-- `bits64(RNE64(z / d))` (00_scope.md R9). The quotient 0 is +0; DEDUCED, and met by no reachable state (log 9). -/
def rne64 (z : Int) (d : Nat) : BitVec 64 :=
  if z = 0 then 0#64
  else BitVec.ofNat 64 ((if z < 0 then 2 ^ 63 else 0) + magnitude64 z.natAbs d)

/-- `bits64(NORM(c)) = bits64(RNE64(OFS(c) / 819))` (42_store.md R183). -/
def State.norm (s : State) (c : Nat) : BitVec 64 := rne64 (s.ofs c) Config.normScale

/-- `{CH_POP[13], ..., CH_POP[0]}` (43_host.md R214). -/
def State.popMask (s : State) : BitVec 14 :=
  BitVec.ofBool (s.populated 13) ++ BitVec.ofBool (s.populated 12) ++ BitVec.ofBool (s.populated 11)
    ++ BitVec.ofBool (s.populated 10) ++ BitVec.ofBool (s.populated 9) ++ BitVec.ofBool (s.populated 8)
    ++ BitVec.ofBool (s.populated 7) ++ BitVec.ofBool (s.populated 6) ++ BitVec.ofBool (s.populated 5)
    ++ BitVec.ofBool (s.populated 4) ++ BitVec.ofBool (s.populated 3) ++ BitVec.ofBool (s.populated 2)
    ++ BitVec.ofBool (s.populated 1) ++ BitVec.ofBool (s.populated 0)

/-- The value of STATUS (10_state.md R32, 43_host.md R214). -/
def State.statusReg (s : State) : RegWord :=
  0b00#2 ++ s.popMask ++ 0b000#3 ++ s.cuc ++ s.pbc ++ s.sync ++ BitVec.ofBool s.hold ++ BitVec.ofBool s.frameReady

/-- The value of CH_RAW[c], `zext_32({CH_POP[c], 0b00000, CH_PW[c]})` (42_store.md R184). -/
def State.chRawReg (s : State) (c : Nat) : RegWord :=
  0#15 ++ BitVec.ofBool (s.populated c) ++ 0b00000#5 ++ s.slotPw c

/-- The value of CH_OFS[c], `sext_32(OFS(c))` (R185). -/
def State.chOfsReg (s : State) (c : Nat) : RegWord := BitVec.ofInt 32 (s.ofs c)

/-- The value of CH_NORM_LO[c], `bits64(NORM(c))[31:0]` (R186). -/
def State.chNormLoReg (s : State) (c : Nat) : RegWord := (s.norm c).extractLsb' 0 32

/-- The value of CH_NORM_HI[c], `bits64(NORM(c))[63:32]` (R187). -/
def State.chNormHiReg (s : State) (c : Nat) : RegWord := (s.norm c).extractLsb' 32 32

/-- What a reserved address and CONTROL read as (20_memory.md R59, 43_host.md R217). -/
def reservedReg : RegWord := 0x00000000#32

/-- `RegRead(a)` by the address map of 20_memory.md R58. The read operations compute their registers themselves; this is the map
that statements hold them against. -/
def State.regRead (s : State) (a : RegAddr) : RegWord :=
  let n := a.toNat
  if n = 0 then s.statusReg
  else if 0x10 ≤ n ∧ n ≤ 0x1D then s.chRawReg (n - 0x10)
  else if 0x20 ≤ n ∧ n ≤ 0x2D then s.chOfsReg (n - 0x20)
  else if 0x40 ≤ n ∧ n ≤ 0x5B then
    if n % 2 = 0 then s.chNormLoReg ((n - 0x40) / 2) else s.chNormHiReg ((n - 0x41) / 2)
  else reservedReg

end Sys2Proof.Machine
end

