-- ==== Sys2Proof/Machine/Flags.lean ====
section
/-! DEFINITION. The block's two flags, FRAME_READY and HOLD (10_state.md R31), and the counter that sets them (41_decode.md
R146, R148). There are no condition codes. -/

namespace Sys2Proof.Machine

/-- `SatAdd7(x) = min(x + 7, 31)` (R146). -/
def satAdd7 (x : BitVec 5) : BitVec 5 := BitVec.ofNat 5 (min (x.toNat + Config.halfCount) Config.cucSat)

/-- CompletionEvent: `FRAME_READY <- 1; HOLD <- 1` (R148). -/
def State.completionEvent (s : State) : State := (s.setFrameReady true).setHold true

/-- `if CUC = 14: CompletionEvent` (R145). -/
def State.completeAt14 (s : State) : State := if s.cuc = Config.completeCount then s.completionEvent else s

/-- CLEAR, bit 0 of a CONTROL write: `if v[0] = 1: FRAME_READY <- 0` (43_host.md R215). -/
def State.clearCommand (s : State) (v : RegWord) : State := if v.getLsbD 0 then s.setFrameReady false else s

/-- RELEASE, bit 1 of a CONTROL write: `if v[1] = 1: HOLD <- 0` (43_host.md R215). -/
def State.releaseCommand (s : State) (v : RegWord) : State := if v.getLsbD 1 then s.setHold false else s

end Sys2Proof.Machine
end

