-- ==== Sys2Proof/Machine/Registers.lean ====
section
/-! DEFINITION. The register operations (42_store.md R184 to R187, 43_host.md R214 to R217) and RESET (70_reset_and_hazards.md
R270). A read's whole effect is the value on reg_rdata (20_memory.md R56). -/

namespace Sys2Proof.Machine

/-- RD_STATUS (43_host.md R214). -/
def execRdStatus (s : State) : Result := .next (s.setRegRdata s.statusReg)

/-- RD_CH_RAW (42_store.md R184). -/
def execRdChRaw (c : BitVec 4) (s : State) : Result := .next (s.setRegRdata (s.chRawReg c.toNat))

/-- RD_CH_OFS (R185). -/
def execRdChOfs (c : BitVec 4) (s : State) : Result := .next (s.setRegRdata (s.chOfsReg c.toNat))

/-- RD_CH_NORM_LO (R186). -/
def execRdChNormLo (c : BitVec 4) (s : State) : Result := .next (s.setRegRdata (s.chNormLoReg c.toNat))

/-- RD_CH_NORM_HI (R187). -/
def execRdChNormHi (c : BitVec 4) (s : State) : Result := .next (s.setRegRdata (s.chNormHiReg c.toNat))

/-- RD_RESERVED, addresses 0x1E and 0x1F (43_host.md R217). -/
def execRdReserved1E (_a : BitVec 1) (s : State) : Result := .next (s.setRegRdata reservedReg)

/-- RD_RESERVED, addresses 0x2E and 0x2F (R217). -/
def execRdReserved2E (_a : BitVec 1) (s : State) : Result := .next (s.setRegRdata reservedReg)

/-- RD_RESERVED, addresses 0x5C to 0x5F (R217). -/
def execRdReserved5C (_a : BitVec 2) (s : State) : Result := .next (s.setRegRdata reservedReg)

/-- RD_RESERVED, every other read address (R217); CONTROL (0x01) is one of them. -/
def execRdReservedOther (_a : RegAddr) (s : State) : Result := .next (s.setRegRdata reservedReg)

/-- WR_CONTROL: CLEAR and RELEASE, each if its bit is 1; bits 31:2 are ignored (R215). -/
def execWrControl (v : RegWord) (s : State) : Result := .next ((s.clearCommand v).releaseCommand v)

/-- WR_IGNORED (R216). -/
def execWrIgnored (_a : RegAddr) (_v : RegWord) (s : State) : Result := .next s

/-- RESET: every element of the block takes its reset value and the step's outputs are 0 (R270). The parameter and what the
environment will drive are no state of the block, so they stay (10_state.md R36). -/
def execReset (s : State) : Result := .next { State.reset with id0Policy := s.id0Policy, inputs := s.inputs }

end Sys2Proof.Machine
end

