-- ==== Sys2Proof/Machine/Decoder.lean ====
section
/-! DEFINITION. The payload decoder and the half-frame commits (41_decode.md R140 to R148): DECODE_WORD, HF_DISCARD, HF_COMMIT0
and HF_COMMIT1. A commit works on the lanes decoded before it and leaves none (log 3). -/

namespace Sys2Proof.Machine

/-- LaneDecode of one more word of the half-frame (R140, R141). -/
def State.decodeLane (s : State) (w : PayloadWord) : State := s.pushLane (laneDecode w)

/-- An invalid half-frame: `CUC <- 0`, and nothing else (R143). -/
def State.discardHalf (s : State) : State := (s.setCuc 0#5).setLanes []

/-- A valid first half-frame (R144). -/
def State.commitFirst (s : State) : State :=
  let t := if s.id0Policy = .replace then s.emptyStore else s
  (t.storeLanes.setCuc 7#5).setLanes []

/-- A valid second half-frame (R145). -/
def State.commitSecond (s : State) : State :=
  let t := s.storeLanes
  ((t.setCuc (satAdd7 t.cuc)).completeAt14).setLanes []

/-- DECODE_WORD (R141). -/
def execDecodeWord (w : PayloadWord) (s : State) : Result := .next (s.decodeLane w)

/-- HF_DISCARD (R143); MID is not examined. -/
def execHfDiscard (_m : BitVec 1) (s : State) : Result := .next s.discardHalf

/-- HF_COMMIT0 (R144). -/
def execHfCommit0 (s : State) : Result := .next s.commitFirst

/-- HF_COMMIT1 (R145). -/
def execHfCommit1 (s : State) : Result := .next s.commitSecond

/-- The commit that the HALF key selects: validity first, then the message id (30_encoding.md R88, 60_exceptions.md R243(3)). -/
def State.commitHalf (s : State) (mid : Bool) : State :=
  if !allValid s.lanes then s.discardHalf
  else if mid then s.commitSecond
  else s.commitFirst

/-- Decode(PBUF): the seven words in increasing order, then the commit (R140). -/
def State.decodePayload (s : State) : State :=
  ((payloadWords s.pbuf).foldl State.decodeLane (s.setLanes [])).commitHalf (payloadMid s.pbuf)

end Sys2Proof.Machine
end

