-- ==== Sys2Proof/Machine/Sync.lean ====
section
/-! DEFINITION. The frame synchronizer's byte operations (40_sync.md R111 to R118). The field `p` of the key is the PBC of the
state the key was made from; a meaning reads PBC from the state (log 5). -/

namespace Sys2Proof.Machine

/-- BYTE_IDLE_SYNC1 (R111). -/
def execByteIdleSync1 (_p : BitVec 4) (s : State) : Result := .next ((s.setSync syncGotFirst).setPbc 0#4)

/-- BYTE_IDLE_SKIP: the byte is consumed and discarded (R112). -/
def execByteIdleSkip (_p : BitVec 4) (_b : Byte) (s : State) : Result := .next s

/-- BYTE_SYNC2 (R113). -/
def execByteSync2 (_p : BitVec 4) (s : State) : Result :=
  .next (((s.setSync syncInPayload).clearPayload).setPbc 0#4)

/-- BYTE_SYNC_FAIL: the byte is discarded and not examined again (R114). -/
def execByteSyncFail (_p : BitVec 4) (_b : Byte) (s : State) : Result := .next (s.setSync syncIdle)

/-- BYTE_PAYLOAD_APPEND (R115). -/
def execBytePayloadAppend (_p : BitVec 4) (b : Byte) (s : State) : Result :=
  .next ((s.writePayload s.pbc.toNat b).setPbc (s.pbc + 1#4))

/-- BYTE_PAYLOAD_LAST: the append, the decode with its commit and the return to Idle in one atomic step (R116, decision D4). -/
def execBytePayloadLast (b : Byte) (s : State) : Result :=
  .next ((((s.writePayload 13 b).setPbc 14#4).decodePayload).setSync syncIdle)

/-- BYTE_PAYLOAD_OVERRUN: no append and no decode (R117, decision D20). -/
def execBytePayloadOverrun (_p : BitVec 1) (_b : Byte) (s : State) : Result := .next (s.setSync syncIdle)

/-- BYTE_ILLEGAL_STATE: the byte is discarded (R118, decision D19). -/
def execByteIllegalState (_p : BitVec 4) (_b : Byte) (s : State) : Result := .next (s.setSync syncIdle)

end Sys2Proof.Machine
end

