-- ==== Sys2Proof/Syntax.lean ====
section
/-! DEFINITION. The operations of the block: one constructor for each of the 24 rows of spec/opcode_table.json
(30_encoding.md R86 to R89, 41_decode.md R141, 70_reset_and_hazards.md R270). The block runs no program; these operations are
what the spec calls its instructions (20_memory.md R51).

An operand is what the row's encoding leaves free. In the BYTE rows `p` is the PBC field of the key: a copy of state, not an
input; it is kept so that no bit of the key is lost, and no meaning reads it (log 5). A register write carries reg_wdata, which
the key does not hold. -/

namespace Sys2Proof

/-- One operation of the block, one constructor for each opcode-table row. -/
inductive Instr where
  /-- BYTE_IDLE_SYNC1 `00PPPP00000000` (R111). -/
  | byteIdleSync1 (p : BitVec 4)
  /-- BYTE_SYNC2 `01PPPP00000000` (R113). -/
  | byteSync2 (p : BitVec 4)
  /-- BYTE_PAYLOAD_LAST `101101BBBBBBBB` (R116). -/
  | bytePayloadLast (b : Byte)
  /-- BYTE_PAYLOAD_OVERRUN `10111PBBBBBBBB` (R117). -/
  | bytePayloadOverrun (p : BitVec 1) (b : Byte)
  /-- BYTE_ILLEGAL_STATE `11PPPPBBBBBBBB` (R118). -/
  | byteIllegalState (p : BitVec 4) (b : Byte)
  /-- BYTE_IDLE_SKIP `00PPPPBBBBBBBB`, b not 0 (R112). -/
  | byteIdleSkip (p : BitVec 4) (b : Byte)
  /-- BYTE_SYNC_FAIL `01PPPPBBBBBBBB`, b not 0 (R114). -/
  | byteSyncFail (p : BitVec 4) (b : Byte)
  /-- BYTE_PAYLOAD_APPEND `10PPPPBBBBBBBB`, PBC 0 to 12 (R115). -/
  | bytePayloadAppend (p : BitVec 4) (b : Byte)
  /-- DECODE_WORD `MCCCCCRRRRRRRRRR` (R141). -/
  | decodeWord (w : PayloadWord)
  /-- HF_COMMIT0 `01` (R144). -/
  | hfCommit0
  /-- HF_COMMIT1 `11` (R145). -/
  | hfCommit1
  /-- HF_DISCARD `M0`, M not examined (R143). -/
  | hfDiscard (m : BitVec 1)
  /-- RD_STATUS (R214). -/
  | rdStatus
  /-- WR_CONTROL (R215). -/
  | wrControl (data : RegWord)
  /-- RD_RESERVED, the row of addresses 0x1E to 0x1F (R217). -/
  | rdReserved1E (a : BitVec 1)
  /-- RD_RESERVED, the row of addresses 0x2E to 0x2F (R217). -/
  | rdReserved2E (a : BitVec 1)
  /-- RD_RESERVED, the row of addresses 0x5C to 0x5F (R217). -/
  | rdReserved5C (a : BitVec 2)
  /-- RD_CH_RAW, c = reg_addr[3:0] (R184). -/
  | rdChRaw (c : BitVec 4)
  /-- RD_CH_OFS, c = reg_addr[3:0] (R185). -/
  | rdChOfs (c : BitVec 4)
  /-- RD_CH_NORM_LO, c = reg_addr[4:1] (R186). -/
  | rdChNormLo (c : BitVec 4)
  /-- RD_CH_NORM_HI, c = reg_addr[4:1] (R187). -/
  | rdChNormHi (c : BitVec 4)
  /-- RD_RESERVED, the row of every other read address, CONTROL among them (R217). -/
  | rdReservedOther (a : RegAddr)
  /-- WR_IGNORED, every write address but 0x01 (R216). -/
  | wrIgnored (a : RegAddr) (data : RegWord)
  /-- RESET, the rst input (R270). -/
  | reset
deriving DecidableEq, Repr

end Sys2Proof
end

