-- ==== Sys2Proof/Machine/Dispatch.lean ====
section
/-! DEFINITION. One arm for each operation of the opcode table. -/

namespace Sys2Proof.Machine

def exec (i : Instr) (s : State) : Host.Outcome State Fault Refusal :=
  match i with
  | .byteIdleSync1 p => Sys2Proof.Machine.execByteIdleSync1 p s
  | .byteSync2 p => Sys2Proof.Machine.execByteSync2 p s
  | .bytePayloadLast b => Sys2Proof.Machine.execBytePayloadLast b s
  | .bytePayloadOverrun p b => Sys2Proof.Machine.execBytePayloadOverrun p b s
  | .byteIllegalState p b => Sys2Proof.Machine.execByteIllegalState p b s
  | .byteIdleSkip p b => Sys2Proof.Machine.execByteIdleSkip p b s
  | .byteSyncFail p b => Sys2Proof.Machine.execByteSyncFail p b s
  | .bytePayloadAppend p b => Sys2Proof.Machine.execBytePayloadAppend p b s
  | .decodeWord w => Sys2Proof.Machine.execDecodeWord w s
  | .hfCommit0 => Sys2Proof.Machine.execHfCommit0 s
  | .hfCommit1 => Sys2Proof.Machine.execHfCommit1 s
  | .hfDiscard m => Sys2Proof.Machine.execHfDiscard m s
  | .rdStatus => Sys2Proof.Machine.execRdStatus s
  | .wrControl v => Sys2Proof.Machine.execWrControl v s
  | .rdReserved1E a => Sys2Proof.Machine.execRdReserved1E a s
  | .rdReserved2E a => Sys2Proof.Machine.execRdReserved2E a s
  | .rdReserved5C a => Sys2Proof.Machine.execRdReserved5C a s
  | .rdChRaw c => Sys2Proof.Machine.execRdChRaw c s
  | .rdChOfs c => Sys2Proof.Machine.execRdChOfs c s
  | .rdChNormLo c => Sys2Proof.Machine.execRdChNormLo c s
  | .rdChNormHi c => Sys2Proof.Machine.execRdChNormHi c s
  | .rdReservedOther a => Sys2Proof.Machine.execRdReservedOther a s
  | .wrIgnored a v => Sys2Proof.Machine.execWrIgnored a v s
  | .reset => Sys2Proof.Machine.execReset s

end Sys2Proof.Machine
end

