-- ==== Sys2Proof/WellFormed.lean ====
section
/-! DEFINITION. Which operands a row of the table admits: the values of its free bits that no row of smaller priority number
takes (30_encoding.md R86 to R89). -/

namespace Sys2Proof

/-- The read addresses that R58 and R89 give a row of priority 1 or 2, so that RD_RESERVED's catch-all row does not get them. -/
def Instr.readTaken (a : RegAddr) : Bool :=
  a == 0x00#8 || (0x10#8 ≤ a && a ≤ 0x2F#8) || (0x40#8 ≤ a && a ≤ 0x5F#8)

/-- The operands of a row. -/
def Instr.wf : Instr → Bool
  | .byteIdleSync1 _ => true
  | .byteSync2 _ => true
  | .bytePayloadLast _ => true
  | .bytePayloadOverrun _ _ => true
  | .byteIllegalState _ _ => true
  | .byteIdleSkip _ b => b != 0x00#8
  | .byteSyncFail _ b => b != 0x00#8
  | .bytePayloadAppend p _ => p ≤ 12#4
  | .decodeWord _ => true
  | .hfCommit0 => true
  | .hfCommit1 => true
  | .hfDiscard _ => true
  | .rdStatus => true
  | .wrControl _ => true
  | .rdReserved1E _ => true
  | .rdReserved2E _ => true
  | .rdReserved5C _ => true
  | .rdChRaw c => c ≤ 13#4
  | .rdChOfs c => c ≤ 13#4
  | .rdChNormLo c => c ≤ 13#4
  | .rdChNormHi c => c ≤ 13#4
  | .rdReservedOther a => !Instr.readTaken a
  | .wrIgnored a _ => a != 0x01#8
  | .reset => true

end Sys2Proof
end

