-- ==== Sys2Proof/Decode.lean ====
section
/-! DEFINITION. The decoder and the encoder of the operation keys (30_encoding.md R86 to R89, 41_decode.md R141), both written
from the opcode table. A decoder "tries the rows of the key's format in increasing priority number and takes the first row for
which `key & mask == match`" (R86). -/

namespace Sys2Proof

/-- One row of spec/opcode_table.json over a key of `n` bits. `build` makes the operation from the key and, for a register
write, from reg_wdata. -/
structure Row (n : Nat) where
  mnemonic : String
  priority : Nat
  pattern : BitVec n
  mask : BitVec n
  build : BitVec n → RegWord → Instr

/-- Whether the row's match and mask fit the key (R86). -/
def Row.fits {n : Nat} (r : Row n) (k : BitVec n) : Bool := k &&& r.mask == r.pattern

/-- The rows of the BYTE key {SYNC, PBC, byte}, in increasing priority number (R87). -/
def byteRows : List (Row 14) := [
  ⟨"BYTE_IDLE_SYNC1", 1, 0x0000#14, 0x30FF#14, fun k _ => .byteIdleSync1 (k.extractLsb' 8 4)⟩,
  ⟨"BYTE_SYNC2", 1, 0x1000#14, 0x30FF#14, fun k _ => .byteSync2 (k.extractLsb' 8 4)⟩,
  ⟨"BYTE_PAYLOAD_LAST", 1, 0x2D00#14, 0x3F00#14, fun k _ => .bytePayloadLast (k.extractLsb' 0 8)⟩,
  ⟨"BYTE_PAYLOAD_OVERRUN", 1, 0x2E00#14, 0x3E00#14, fun k _ => .bytePayloadOverrun (k.extractLsb' 8 1) (k.extractLsb' 0 8)⟩,
  ⟨"BYTE_ILLEGAL_STATE", 1, 0x3000#14, 0x3000#14, fun k _ => .byteIllegalState (k.extractLsb' 8 4) (k.extractLsb' 0 8)⟩,
  ⟨"BYTE_IDLE_SKIP", 2, 0x0000#14, 0x3000#14, fun k _ => .byteIdleSkip (k.extractLsb' 8 4) (k.extractLsb' 0 8)⟩,
  ⟨"BYTE_SYNC_FAIL", 2, 0x1000#14, 0x3000#14, fun k _ => .byteSyncFail (k.extractLsb' 8 4) (k.extractLsb' 0 8)⟩,
  ⟨"BYTE_PAYLOAD_APPEND", 2, 0x2000#14, 0x3000#14, fun k _ => .bytePayloadAppend (k.extractLsb' 8 4) (k.extractLsb' 0 8)⟩]

/-- The one row of the WORD key, a payload word (41_decode.md R141). -/
def wordRows : List (Row 16) := [
  ⟨"DECODE_WORD", 1, 0x0000#16, 0x0000#16, fun k _ => .decodeWord k⟩]

/-- The rows of the HALF key {MID, ALLV} (R88). -/
def halfRows : List (Row 2) := [
  ⟨"HF_COMMIT0", 1, 0b01#2, 0b11#2, fun _ _ => .hfCommit0⟩,
  ⟨"HF_COMMIT1", 1, 0b11#2, 0b11#2, fun _ _ => .hfCommit1⟩,
  ⟨"HF_DISCARD", 1, 0b00#2, 0b01#2, fun k _ => .hfDiscard (k.extractLsb' 1 1)⟩]

/-- The rows of the REG key {reg_we, reg_addr}, in increasing priority number (R89). -/
def regRows : List (Row 9) := [
  ⟨"RD_STATUS", 1, 0x000#9, 0x1FF#9, fun _ _ => .rdStatus⟩,
  ⟨"WR_CONTROL", 1, 0x101#9, 0x1FF#9, fun _ d => .wrControl d⟩,
  ⟨"RD_RESERVED", 1, 0x01E#9, 0x1FE#9, fun k _ => .rdReserved1E (k.extractLsb' 0 1)⟩,
  ⟨"RD_RESERVED", 1, 0x02E#9, 0x1FE#9, fun k _ => .rdReserved2E (k.extractLsb' 0 1)⟩,
  ⟨"RD_RESERVED", 1, 0x05C#9, 0x1FC#9, fun k _ => .rdReserved5C (k.extractLsb' 0 2)⟩,
  ⟨"RD_CH_RAW", 2, 0x010#9, 0x1F0#9, fun k _ => .rdChRaw (k.extractLsb' 0 4)⟩,
  ⟨"RD_CH_OFS", 2, 0x020#9, 0x1F0#9, fun k _ => .rdChOfs (k.extractLsb' 0 4)⟩,
  ⟨"RD_CH_NORM_LO", 2, 0x040#9, 0x1E1#9, fun k _ => .rdChNormLo (k.extractLsb' 1 4)⟩,
  ⟨"RD_CH_NORM_HI", 2, 0x041#9, 0x1E1#9, fun k _ => .rdChNormHi (k.extractLsb' 1 4)⟩,
  ⟨"RD_RESERVED", 3, 0x000#9, 0x100#9, fun k _ => .rdReservedOther (k.extractLsb' 0 8)⟩,
  ⟨"WR_IGNORED", 3, 0x100#9, 0x100#9, fun k d => .wrIgnored (k.extractLsb' 0 8) d⟩]

/-- The row of the rst input, which is none of R86's four keys (R270). -/
def rstRows : List (Row 1) := [
  ⟨"RESET", 1, 0b1#1, 0b1#1, fun _ _ => .reset⟩]

/-- An operation as the block selects it: the key of one format (R86), with reg_wdata beside a REG key, or the rst input. -/
inductive OpKey where
  | byte (k : BitVec 14)
  | word (w : PayloadWord)
  | half (k : BitVec 2)
  | reg (k : BitVec 9) (wdata : RegWord)
  | rst (r : BitVec 1)
deriving DecidableEq, Repr

/-- Why a key is rejected. -/
inductive DecodeReject where
  /-- No row of the format fits the key: only rst = 0, which asks for no operation. -/
  | noRow
deriving DecidableEq, Repr

/-- The first row that fits (R86). -/
def firstRow {n : Nat} (rows : List (Row n)) (k : BitVec n) (wdata : RegWord) : Except DecodeReject Instr :=
  match rows.find? (fun r => r.fits k) with
  | some r => .ok (r.build k wdata)
  | none => .error .noRow

/-- The decoder, total on every key. -/
def decode : OpKey → Except DecodeReject Instr
  | .byte k => firstRow byteRows k 0#32
  | .word w => firstRow wordRows w 0#32
  | .half k => firstRow halfRows k 0#32
  | .reg k wdata => firstRow regRows k wdata
  | .rst r => firstRow rstRows r 0#32

/-- The key of an operation, written from the table's encodings. A read carries no data, so its data bits are 0. -/
def encode : Instr → OpKey
  | .byteIdleSync1 p => .byte (0b00#2 ++ p ++ 0x00#8)
  | .byteSync2 p => .byte (0b01#2 ++ p ++ 0x00#8)
  | .bytePayloadLast b => .byte (0b101101#6 ++ b)
  | .bytePayloadOverrun p b => .byte (0b10111#5 ++ p ++ b)
  | .byteIllegalState p b => .byte (0b11#2 ++ p ++ b)
  | .byteIdleSkip p b => .byte (0b00#2 ++ p ++ b)
  | .byteSyncFail p b => .byte (0b01#2 ++ p ++ b)
  | .bytePayloadAppend p b => .byte (0b10#2 ++ p ++ b)
  | .decodeWord w => .word w
  | .hfCommit0 => .half 0b01#2
  | .hfCommit1 => .half 0b11#2
  | .hfDiscard m => .half (m ++ 0b0#1)
  | .rdStatus => .reg 0b000000000#9 0#32
  | .wrControl d => .reg 0b100000001#9 d
  | .rdReserved1E a => .reg (0b00001111#8 ++ a) 0#32
  | .rdReserved2E a => .reg (0b00010111#8 ++ a) 0#32
  | .rdReserved5C a => .reg (0b0010111#7 ++ a) 0#32
  | .rdChRaw c => .reg (0b00001#5 ++ c) 0#32
  | .rdChOfs c => .reg (0b00010#5 ++ c) 0#32
  | .rdChNormLo c => .reg (0b0010#4 ++ c ++ 0b0#1) 0#32
  | .rdChNormHi c => .reg (0b0010#4 ++ c ++ 0b1#1) 0#32
  | .rdReservedOther a => .reg (0b0#1 ++ a) 0#32
  | .wrIgnored a d => .reg (0b1#1 ++ a) d
  | .reset => .rst 0b1#1

/-- Which format a bare table word belongs to. The table numbers the bits of each format's key from 0 and gives no bit that
names the format, so words of different formats coincide. DESIGN CHOICE (log 7), unsafe only for a claim about this function:
a width that one format alone has selects it; of the 16-bit words those below 2^9 are REG keys, those below 2^14 BYTE keys and
the rest payload words; of the 8-bit words those below 2^2 are HALF keys and the rest the rst input. -/
def tableKey (nbits w : Nat) : Option OpKey :=
  if nbits = 1 then (if w < 2 then some (.rst (BitVec.ofNat 1 w)) else none)
  else if nbits = 2 then (if w < 4 then some (.half (BitVec.ofNat 2 w)) else none)
  else if nbits = 9 then (if w < 0x200 then some (.reg (BitVec.ofNat 9 w) 0#32) else none)
  else if nbits = 14 then (if w < 0x4000 then some (.byte (BitVec.ofNat 14 w)) else none)
  else if nbits = 8 then
    if w < 4 then some (.half (BitVec.ofNat 2 w))
    else if w < 0x100 then some (.rst (BitVec.ofNat 1 w)) else none
  else if nbits = 16 then
    if w < 0x200 then some (.reg (BitVec.ofNat 9 w) 0#32)
    else if w < 0x4000 then some (.byte (BitVec.ofNat 14 w))
    else if w < 0x10000 then some (.word (BitVec.ofNat 16 w)) else none
  else none

/-- The operation the decoder reads from a bare table word; reg_wdata, which has no bits in the table, is 0. -/
def decodeTableWord (nbits w : Nat) : Option Instr :=
  match tableKey nbits w with
  | some k => (decode k).toOption
  | none => none

end Sys2Proof
end

