-- ==== Sys2Proof/Machine/Fetch.lean ====
section
/-! DEFINITION. How a step finds its operations on the input ports: the pins of the step, the keys made from them and from the
state (30_encoding.md R86, 43_host.md R213). And the converse, `State.withFetch`: the state and the pins that make the next step
select a given operation (log 11). -/

namespace Sys2Proof.Machine

/-- Every pin at 0: what the environment drives when State.inputs is exhausted (log 1). -/
def idlePins : Pins := ⟨false, false, 0x00#8, false, false, 0x00#8, 0#32⟩

/-- The producer presents byte b and the register host does nothing. -/
def bytePins (b : Byte) : Pins := { idlePins with inValid := true, inData := b }

/-- The register host reads address a. -/
def readPins (a : RegAddr) : Pins := { idlePins with regRe := true, regAddr := a }

/-- The register host writes v to address a. -/
def writePins (a : RegAddr) (v : RegWord) : Pins := { idlePins with regWe := true, regAddr := a, regWdata := v }

/-- Reset is asserted. -/
def resetPins : Pins := { idlePins with rst := true }

/-- The pins of the coming step. -/
def State.nextPins (s : State) : Pins := s.inputs.headD idlePins

/-- `in_ready = (HOLD = 0) and (rst = 0)`, from the state before the step (43_host.md R211). -/
def acceptsByte (s : State) (p : Pins) : Bool := !s.hold && !p.rst

/-- The state in which the step's operations run: the pins are taken, in_ready shows its value for this step, and reg_rdata is 0
unless a read of this step sets it (R213). -/
def State.beginStep (s : State) : State :=
  ((s.setInputs s.inputs.tail).setInReady (acceptsByte s s.nextPins)).setRegRdata 0#32

/-- The BYTE key `{SYNC, PBC, b}` (40_sync.md R110). -/
def State.byteKey (s : State) (b : Byte) : BitVec 14 := s.sync ++ s.pbc ++ b

/-- The REG key `{reg_we, reg_addr}` (R86). -/
def regKey (we : Bool) (a : RegAddr) : BitVec 9 := BitVec.ofBool we ++ a

/-- The register operation's key, where the step has one: a write if reg_we is 1, also when reg_re is 1 (43_host.md R210, R213);
a read if only reg_re is 1; "A cycle with no register access selects no row" (R89). -/
def regAccess (p : Pins) : Option OpKey :=
  if p.regWe then some (.reg (regKey true p.regAddr) p.regWdata)
  else if p.regRe then some (.reg (regKey false p.regAddr) 0#32)
  else none

/-- A payload whose seven words are all w. -/
def uniformPayload (w : PayloadWord) : Payload :=
  ⟨#[w.extractLsb' 8 8, w.extractLsb' 0 8, w.extractLsb' 8 8, w.extractLsb' 0 8, w.extractLsb' 8 8, w.extractLsb' 0 8,
    w.extractLsb' 8 8, w.extractLsb' 0 8, w.extractLsb' 8 8, w.extractLsb' 0 8, w.extractLsb' 8 8, w.extractLsb' 0 8,
    w.extractLsb' 8 8, w.extractLsb' 0 8], rfl⟩

/-- A payload that makes the decoder select a row of the HALF key: for a commit, the payloads of 95_test_vectors.md's frames A and
B (channels 0 to 6 at 990, channels 7 to 13 at 992); for a discard, words of PW 0, with MID in the first byte (log 11). -/
def halfPayload (i : Instr) : Payload :=
  match i with
  | .hfCommit0 => ⟨#[0x01#8, 0xEF#8, 0x05#8, 0xEF#8, 0x09#8, 0xEF#8, 0x0D#8, 0xEF#8, 0x11#8, 0xEF#8, 0x15#8, 0xEF#8,
      0x19#8, 0xEF#8], rfl⟩
  | .hfCommit1 => ⟨#[0x9D#8, 0xF0#8, 0x21#8, 0xF0#8, 0x25#8, 0xF0#8, 0x29#8, 0xF0#8, 0x2D#8, 0xF0#8, 0x31#8, 0xF0#8,
      0x35#8, 0xF0#8], rfl⟩
  | .hfDiscard 1#1 => uniformPayload 0x8000#16
  | _ => uniformPayload 0x0000#16

/-- The coming step's pins replaced by p. -/
def State.withPins (s : State) (p : Pins) : State := s.setInputs (p :: s.inputs.tail)

/-- The state whose next step forms the BYTE key k: SYNC and PBC are the key's, and HOLD is 0, so that the byte is accepted. -/
def State.withByteKey (s : State) (k : BitVec 14) : State :=
  (((s.setSync (k.extractLsb' 12 2)).setPbc (k.extractLsb' 8 4)).setHold false).withPins (bytePins (k.extractLsb' 0 8))

/-- The state whose next step accepts the last byte of payload p, so that it decodes p. -/
def State.withPayload (s : State) (p : Payload) : State :=
  (s.setPbuf p).withByteKey (0b101101#6 ++ payloadByte p 13)

/-- The state whose next step runs operation i. The operations inside a decode have no pins of their own: the step that runs one is
the BYTE_PAYLOAD_LAST step of a payload that selects it (log 11). -/
def State.withFetch (s : State) (i : Instr) : State :=
  match encode i with
  | .byte k => s.withByteKey k
  | .word w => s.withPayload (uniformPayload w)
  | .half _ => s.withPayload (halfPayload i)
  | .reg k d =>
    s.withPins (if k.getLsbD 8 then writePins (k.extractLsb' 0 8) d else readPins (k.extractLsb' 0 8))
  | .rst _ => s.withPins resetPins

end Sys2Proof.Machine
end

