-- ==== Sys2Proof/Machine/Cycle.lean ====
section
/-! DEFINITION. The operations of one step in their order (20_memory.md R62, 43_host.md R213). -/

namespace Sys2Proof.Machine

/-- The operation that a key selects, run. "Every key value matches some row" (R86), so the refusal is never met. -/
def runKey (k : OpKey) (s : State) : Result :=
  match decode k with
  | .ok i => exec i s
  | .error _ => .refused .noRowFits

/-- The register operation of the step, if any (R213). -/
def runRegAccess (p : Pins) (s : State) : Result :=
  match regAccess p with
  | some k => runKey k s
  | none => .next s

/-- The byte step, if a byte is accepted: exactly when in_valid = 1 and in_ready = 1, in_ready being that of the state before the
step (40_sync.md R110, 43_host.md R211). -/
def runByteStep (p : Pins) (s : State) : Result :=
  if p.inValid && s.inReady then runKey (.byte (s.byteKey p.inData)) s else .next s

/-- One step with the pins p, from the state that beginStep leaves: reset and nothing else; or the register operation, then the
byte step (R213, 70_reset_and_hazards.md R270). -/
def cycle (p : Pins) (s : State) : Result :=
  if p.rst then runKey (.rst 1#1) s else andThen (runRegAccess p s) (runByteStep p)

end Sys2Proof.Machine
end

