-- ==== Sys2Proof/Machine/Step.lean ====
section
/-! DEFINITION. One step of the block, one rising edge of clk (43_host.md R213), and the placing of a table word where the next
step takes its operation from. -/

namespace Sys2Proof.Machine

/-- One step (R213): the pins of the step are the first of State.inputs. -/
def step (s : State) : Host.Outcome State Fault Refusal := cycle s.nextPins s.beginStep

/-- The state whose next step runs the operation that the decoder reads from the table word w (log 7, log 11); the state itself
where the decoder reads none. -/
def State.withFetchWord (s : State) (nbits w : Nat) : State :=
  match decodeTableWord nbits w with
  | some i => s.withFetch i
  | none => s

end Sys2Proof.Machine
end

