-- ==== Sys2Proof/Safety.lean ====
section
/-! DEFINITION. What statements about the block speak of: the states of R35, the block's own state without the model's fields, runs
under given pins, what a decode does to the store, the values of binary64, and the parser of §3 that R34 and R220 hold the block
against. -/

namespace Sys2Proof.Machine

/-- The counts of 10_state.md R35(d). -/
abbrev cucReachable (n : Nat) : Prop := n = 0 ∨ n = 7 ∨ n = 14 ∨ n = 21 ∨ n = 28 ∨ n = 31

/-- What R35(c) allows a slot to hold. -/
abbrev slotLegal (populated : Bool) (pw : PulseWidth) : Prop :=
  (populated = true ∧ 172 ≤ pw.toNat ∧ pw.toNat ≤ 1810 ∧ pw.toNat % 2 = 0) ∨ (populated = false ∧ pw = 0#11)

/-- What 10_state.md R35(a) to (d) say of every state reachable from reset, with the PBC that R113 and R114 give in GotFirstSyncByte,
and with no decode under way between steps (log 3). -/
abbrev State.Inv (s : State) : Prop :=
  s.sync ≠ syncIllegal
  ∧ s.pbc.toNat ≤ 14
  ∧ (s.sync = syncInPayload → s.pbc.toNat ≤ 13)
  ∧ (s.sync = syncGotFirst → s.pbc = 0#4)
  ∧ (∀ c, c < 14 → slotLegal (s.populated c) (s.slotPw c))
  ∧ cucReachable s.cuc.toNat
  ∧ s.lanes = []

/-- Every element of the block has its reset value (70_reset_and_hazards.md R270, 10_state.md R21 to R28). -/
def State.HasResetValues (s : State) : Prop :=
  s.sync = 0b00#2 ∧ s.pbc = 0#4 ∧ (∀ j (hj : j < 14), s.pbuf[j] = 0x00#8)
  ∧ (∀ c (hc : c < 14), s.chPop[c] = false ∧ s.chPw[c] = 0#11)
  ∧ s.cuc = 0#5 ∧ s.frameReady = false ∧ s.hold = false

/-- The state with the step's outputs and the environment's pins blanked: what is left is the block's own (R20), with ID0_POLICY and
the lane values. -/
def State.own (s : State) : State := { s with inReady := false, regRdata := 0#32, inputs := [] }

/-- The run of one step for each record of pins, from s. -/
def runPins (ps : List Pins) (s : State) : Result := Sys2Proof.core.run ps.length (s.setInputs ps)

/-- Pins that ask nothing of the block: no reset, no byte, no register write. A register read may be among them (20_memory.md R56). -/
def Pins.asksNothing (p : Pins) : Bool := !p.rst && !p.inValid && !p.regWe

/-- The step writes CONTROL with bit n of the data set: CLEAR for n = 0, RELEASE for n = 1 (43_host.md R215). -/
def Pins.commands (p : Pins) (n : Nat) : Bool := !p.rst && p.regWe && p.regAddr == 0x01#8 && p.regWdata.getLsbD n

/-- The step accepts a byte (43_host.md R211). -/
def State.accepts (s : State) (p : Pins) : Bool := p.inValid && acceptsByte s p

/-- The 16 bytes of a frame in reception order (30_encoding.md R80). -/
def frameBytes (p : Payload) : List Byte := 0x00#8 :: 0x00#8 :: p.toList

/-- A frame presented one byte in each step. -/
def framePins (p : Payload) : List Pins := (frameBytes p).map bytePins

/-- The seven lanes of a payload (41_decode.md R140). -/
def payloadLanes (p : Payload) : List Lane := (payloadWords p).map laneDecode

/-- How a half-frame is committed (30_encoding.md R88). -/
inductive HalfKind where
  | discard
  | first
  | second
deriving DecidableEq, Repr

/-- Validity first, then the message id (R88, 60_exceptions.md R243(3)). -/
def halfKind (p : Payload) : HalfKind :=
  if (payloadLanes p).all (fun l => l.valid) then (if payloadMid p then .second else .first) else .discard

/-- The store of t is that of s with the lanes written in increasing order, the later of two lanes of one channel staying
(41_decode.md R147); a slot no lane names is emptied where `emptied` says so and otherwise keeps its value (R144, R145). -/
def SlotsWritten (s t : State) (ls : List Lane) (emptied : Bool) : Prop :=
  ∀ c, c < 14 →
    (∀ k (hk : k < ls.length), ls[k].chid.toNat = c →
      (∀ k' (hk' : k' < ls.length), k < k' → ls[k'].chid.toNat ≠ c) →
      t.populated c = true ∧ t.slotPw c = ls[k].pw)
    ∧ ((∀ l ∈ ls, l.chid.toNat ≠ c) →
      (emptied = true → t.populated c = false ∧ t.slotPw c = 0#11)
      ∧ (emptied = false → t.populated c = s.populated c ∧ t.slotPw c = s.slotPw c))

/-- What the decode of payload p does to the store, the counter and the flags (41_decode.md R143, R144, R145, R146, R148). -/
def HalfFrameEffect (s t : State) (p : Payload) : Prop :=
  match halfKind p with
  | .discard =>
    t.chPop = s.chPop ∧ t.chPw = s.chPw ∧ t.cuc = 0#5 ∧ t.frameReady = s.frameReady ∧ t.hold = s.hold
  | .first =>
    SlotsWritten s t (payloadLanes p) (decide (s.id0Policy = .replace)) ∧ t.cuc = 7#5
      ∧ t.frameReady = s.frameReady ∧ t.hold = s.hold
  | .second =>
    SlotsWritten s t (payloadLanes p) false ∧ t.cuc.toNat = min (s.cuc.toNat + 7) 31
      ∧ t.frameReady = (s.frameReady || decide (t.cuc = 14#5)) ∧ t.hold = (s.hold || decide (t.cuc = 14#5))

/-- The source's unbounded channel_update_count after one more half-frame (41_decode.md R149). -/
def unboundedCount (n : Nat) (p : Payload) : Nat :=
  match halfKind p with
  | .discard => 0
  | .first => 7
  | .second => n + 7

/-- Whether a half-frame completes a cycle for the unbounded count (41_decode.md R145, R149). -/
def unboundedCompletes (n : Nat) (p : Payload) : Bool := halfKind p == .second && unboundedCount n p == 14

/-- Whether any half-frame of a sequence completes a cycle for the unbounded count. -/
def anyCompletes : Nat → List Payload → Bool
  | _, [] => false
  | n, p :: ps => unboundedCompletes n p || anyCompletes (unboundedCount n p) ps

/-- Frames presented one after another, with a RELEASE after each, so that none is refused. -/
def releasedFrames (ps : List Payload) : List Pins := ps.flatMap (fun p => framePins p ++ [writePins 0x01#8 2#32])

/-- The rational a finite binary64 encoding stands for: sign bit 63, exponent 62:52 with bias 1023, fraction 51:0
(93_implementation_defined.md G1). -/
def value64 (x : BitVec 64) : ℚ :=
  let e : ℕ := (x.toNat / 2 ^ 52) % 2048
  let f : ℕ := x.toNat % 2 ^ 52
  let m : ℚ := if e = 0 then (f : ℚ) / 2 ^ 1074 else ((2 ^ 52 + f : Nat) : ℚ) * 2 ^ e / 2 ^ 1075
  if x.getLsbD 63 then -m else m

/-- A finite binary64 encoding: its exponent field is not all ones. -/
def finite64 (x : BitVec 64) : Prop := (x.toNat / 2 ^ 52) % 2048 ≠ 2047

/-- x is RNE64(q): no finite value is nearer to q, and of two nearest the one with the even significand (00_scope.md R9). -/
def IsRne64 (x : BitVec 64) (q : ℚ) : Prop :=
  finite64 x ∧ ∀ y, finite64 y →
    |value64 x - q| ≤ |value64 y - q| ∧ (|value64 x - q| = |value64 y - q| → value64 y = value64 x ∨ x.getLsbD 0 = false)

/-- §3's sync_state (10_state.md R21, R34). -/
inductive ParserSync where
  | idle
  | gotFirstSyncByte
  | inPayload
deriving DecidableEq, Repr

/-- §3's Parser State, as 10_state.md R34 lists it, but for carry_buffer, which is not block state. -/
structure Parser where
  syncState : ParserSync
  payloadByteCount : Nat
  payloadBuffer : List Nat
  channelMap : Nat → Option Nat
  channelUpdateCount : Nat
  frameReady : Bool

/-- The list of bytes grouped into big-endian 16-bit words (41_decode.md R140, 20_memory.md R52). -/
def wordsOf : List Nat → List Nat
  | hi :: lo :: rest => (256 * hi + lo) :: wordsOf rest
  | _ => []

/-- The id and pulse width of a word, by division (30_encoding.md R82, R84, R85). -/
def entryOf (w : Nat) : Nat × Nat := (w / 1024 % 32, 2 * (w % 1024))

/-- "A word is valid iff its channel value lies in [172, 1810] inclusive AND its channel id is < 14" (41_decode.md R141). -/
def entryValid (e : Nat × Nat) : Bool := decide (172 ≤ e.2) && decide (e.2 ≤ 1810) && decide (e.1 < 14)

/-- The map with the entries written in order (41_decode.md R147). -/
def storeEntries (m : Nat → Option Nat) (es : List (Nat × Nat)) : Nat → Option Nat :=
  es.foldl (fun f e => fun c => if c = e.1 then some e.2 else f c) m

/-- The parser's decoder on a whole payload (41_decode.md R143 to R145), the count unbounded. -/
def Parser.decode (pol : Id0Policy) (q : Parser) : Parser :=
  let es := (wordsOf q.payloadBuffer).map entryOf
  if (es.filter entryValid).length ≠ 7 then { q with channelUpdateCount := 0 }
  else if q.payloadBuffer.headD 0 / 128 = 0 then
    { q with channelMap := storeEntries (if pol = .replace then fun _ => none else q.channelMap) es, channelUpdateCount := 7 }
  else
    { q with
      channelMap := storeEntries q.channelMap es
      channelUpdateCount := q.channelUpdateCount + 7
      frameReady := q.frameReady || decide (q.channelUpdateCount + 7 = 14) }

/-- The parser's synchronizer on one byte (40_sync.md R111 to R116). -/
def Parser.feed (pol : Id0Policy) (q : Parser) (b : Nat) : Parser :=
  match q.syncState with
  | .idle => if b = 0 then { q with syncState := .gotFirstSyncByte, payloadByteCount := 0 } else q
  | .gotFirstSyncByte =>
    if b = 0 then { q with syncState := .inPayload, payloadByteCount := 0, payloadBuffer := [] }
    else { q with syncState := .idle }
  | .inPayload =>
    let a := { q with payloadBuffer := q.payloadBuffer ++ [b], payloadByteCount := q.payloadByteCount + 1 }
    if q.payloadByteCount + 1 < 14 then a else { a.decode pol with syncState := .idle }

/-- A cycle completes at this byte, which is the event of 41_decode.md R148: the payload's last byte arrives, its seven words are
valid, it is a second half and the count was 7. -/
def Parser.completesAt (q : Parser) (b : Nat) : Bool :=
  decide (q.syncState = .inPayload) && decide (q.payloadByteCount = 13)
    && ((wordsOf (q.payloadBuffer ++ [b])).map entryOf).all entryValid
    && decide (q.payloadBuffer.headD 0 / 128 = 1) && decide (q.channelUpdateCount = 7)

/-- The correspondence of 10_state.md R34, with R35(b), which a stepping block keeps. -/
def State.Corresponds (s : State) (q : Parser) : Prop :=
  s.sync = (match q.syncState with
    | .idle => syncIdle
    | .gotFirstSyncByte => syncGotFirst
    | .inPayload => syncInPayload)
  ∧ s.pbc.toNat = q.payloadByteCount
  ∧ (q.syncState = .inPayload →
      q.payloadByteCount ≤ 13 ∧ q.payloadBuffer = (s.pbuf.toList.take q.payloadByteCount).map BitVec.toNat)
  ∧ (∀ c, c < 14 → q.channelMap c = if s.populated c then some (s.slotPw c).toNat else none)
  ∧ s.cuc.toNat = min q.channelUpdateCount 31
  ∧ s.frameReady = q.frameReady

/-- The two states differ at most in bytes of PBUF that no rule reads: those at j >= PBC while InPayload, and any byte otherwise
(10_state.md R23, 93_implementation_defined.md U8). -/
def SameButStaleBytes (s t : State) : Prop :=
  { t with pbuf := s.pbuf } = s
  ∧ (s.sync = syncInPayload → ∀ j, j < s.pbc.toNat → payloadByte t.pbuf j = payloadByte s.pbuf j)

end Sys2Proof.Machine
end

