-- ==== Sys2Proof/Certificates/Slice0/Obligations.lean ====
section
/-! DEFINITION. The statements for the provers, from the numbered rules of spec/. A result is an equation with a next state, so that
it says at once what the operation writes, what it leaves and that it completes. There is no memory (20_memory.md R50): the state's
fields are all there is to leave unchanged. -/

open Sys2Proof Sys2Proof.Machine

/-! ## The keys (30_encoding.md R86 to R89) -/

/-- Decoding the key of a well-formed operation gives the operation back, with every operand at every value. -/
def Obligations.DecodeOfEncodeIsTheOperation : Prop :=
  ∀ i : Instr, i.wf = true → decode (encode i) = .ok i

/-- What the decoder reads is well-formed, and its key is the one read; a register read's key carries no data. -/
def Obligations.EncodeOfDecodeIsTheKey : Prop :=
  ∀ (k : OpKey) (i : Instr), decode k = .ok i →
    i.wf = true
    ∧ (match k with
      | .reg r d => encode i = .reg r (if r.getLsbD 8 then d else 0#32)
      | _ => encode i = k)

/-- "Rows of equal priority within a format never overlap, and every key value matches some row"; rst = 0 is no key. -/
def Obligations.RowsOfEqualPriorityAreDisjointAndCoverEveryKey : Prop :=
  (∀ k, byteRows.Pairwise (fun a b => a.priority = b.priority → ¬(a.fits k = true ∧ b.fits k = true)))
  ∧ (∀ k, halfRows.Pairwise (fun a b => a.priority = b.priority → ¬(a.fits k = true ∧ b.fits k = true)))
  ∧ (∀ k, regRows.Pairwise (fun a b => a.priority = b.priority → ¬(a.fits k = true ∧ b.fits k = true)))
  ∧ (∀ k, ∃ r ∈ byteRows, r.fits k = true)
  ∧ (∀ k, ∃ r ∈ wordRows, r.fits k = true)
  ∧ (∀ k, ∃ r ∈ halfRows, r.fits k = true)
  ∧ (∀ k, ∃ r ∈ regRows, r.fits k = true)

/-- A few keys written out bit by bit from the table's encodings decode to their operations. -/
def Obligations.WrittenOutKeysDecode : Prop :=
  decode (.byte 0b00111000000000#14) = .ok (.byteIdleSync1 14#4)
  ∧ decode (.byte 0b10010110000001#14) = .ok (.bytePayloadAppend 5#4 0x81#8)
  ∧ decode (.byte 0b10110111101111#14) = .ok (.bytePayloadLast 0xEF#8)
  ∧ decode (.word 0b1000000111101111#16) = .ok (.decodeWord 0x81EF#16)
  ∧ decode (.half 0b11#2) = .ok .hfCommit1
  ∧ decode (.reg 0b000010011#9 0#32) = .ok (.rdChRaw 3#4)
  ∧ decode (.reg 0b001011011#9 0#32) = .ok (.rdChNormHi 13#4)
  ∧ decode (.reg 0b100000001#9 3#32) = .ok (.wrControl 3#32)

/-! ## The step (43_host.md R210 to R213) -/

/-- A step runs the operations its pins and its state select, in the order of R213: reset alone; else the register operation, then
the byte operation whose key is made after it. -/
def Obligations.StepRunsTheDecodedOperations : Prop :=
  ∀ (s : State) (p : Pins) (rest : List Pins), s.inputs = p :: rest →
    let s0 : State := { s with inputs := rest, inReady := !s.hold && !p.rst, regRdata := 0#32 }
    (p.rst = true → step s = exec .reset s0)
    ∧ (p.rst = false → ∀ t : State,
        (p.regWe = true →
          ∃ i, decode (.reg (1#1 ++ p.regAddr) p.regWdata) = .ok i ∧ i.wf = true ∧ exec i s0 = .next t) →
        (p.regWe = false → p.regRe = true →
          ∃ i, decode (.reg (0#1 ++ p.regAddr) 0#32) = .ok i ∧ i.wf = true ∧ exec i s0 = .next t) →
        (p.regWe = false → p.regRe = false → t = s0) →
        (p.inValid = true → s.hold = false →
          ∃ i, decode (.byte (t.sync ++ t.pbc ++ p.inData)) = .ok i ∧ i.wf = true ∧ step s = exec i t)
        ∧ (p.inValid = false ∨ s.hold = true → step s = .next t))

/-- The model's choice (log 1): where the environment's list is exhausted every pin is 0, and the step changes nothing of the
block's own state. -/
def Obligations.StepWithNoPinsLeftIsIdle : Prop :=
  ∀ s : State, s.inputs = [] → step s = .next { s with inReady := !s.hold, regRdata := 0#32 }

/-- Every operation in every state, and every step from every state, answers a next state: no fault and no refusal. -/
def Obligations.EveryOperationAndStepAnswersNext : Prop :=
  (∀ (i : Instr) (s : State), ∃ t, exec i s = .next t) ∧ (∀ s : State, ∃ t, step s = .next t)

/-- The model's choice (log 11): placed by withFetch, a well-formed operation that has pins of its own is what the next step runs. -/
def Obligations.PlacedOperationRunsInTheNextStep : Prop :=
  ∀ (i : Instr) (s : State), i.wf = true →
    (∀ k, encode i = .byte k → step (s.withFetch i) = exec i (s.withFetch i).beginStep)
    ∧ (∀ k d, encode i = .reg k d → step (s.withFetch i) = exec i (s.withFetch i).beginStep)
    ∧ (encode i = .rst 1#1 → step (s.withFetch i) = exec i (s.withFetch i).beginStep)

/-- in_ready of a step is (HOLD = 0) and (rst = 0) of the state before it. -/
def Obligations.InReadyIsHoldClearAndNoReset : Prop :=
  ∀ s t : State, step s = .next t → t.inReady = (!s.hold && !s.nextPins.rst)

/-- reg_rdata of a step is RegRead of the state before it, by the address map, if the step only reads; else 0. -/
def Obligations.RegRdataIsTheMapOfThePreStepState : Prop :=
  ∀ s : State, ∃ t, step s = .next t
    ∧ t.regRdata = (if s.nextPins.regRe && !s.nextPins.regWe && !s.nextPins.rst then s.regRead s.nextPins.regAddr else 0#32)

/-- A byte presented while HOLD = 1 is refused: with no reset and no CONTROL write the block's own state stays as it is. -/
def Obligations.ByteRefusedUnderHoldChangesNothing : Prop :=
  ∀ s : State, s.hold = true → s.nextPins.rst = false → s.nextPins.regWe = false →
    ∃ t, step s = .next t ∧ t.own = s.own ∧ t.inReady = false

/-- A RELEASE written in a step does not make that step accept the byte presented with it. -/
def Obligations.ReleaseAcceptsNoByteInItsOwnStep : Prop :=
  ∀ s : State, s.hold = true → s.nextPins.rst = false → s.nextPins.regWe = true → s.nextPins.regAddr = 0x01#8 →
    s.nextPins.regWdata = 2#32 → ∃ t, step s = .next t ∧ t.own = { s.own with hold := false }

/-- A CLEAR in the step of a completing byte comes first and the completion sets the flags: FRAME_READY ends 1. -/
def Obligations.CompletionWinsOverSameStepClear : Prop :=
  ∀ (s : State) (b : Byte) (v : RegWord) (rest : List Pins),
    s.inputs = { bytePins b with regWe := true, regAddr := 0x01#8, regWdata := v } :: rest →
    s.hold = false → s.sync = syncInPayload → s.pbc = 13#4 → s.cuc = 7#5 → halfKind (s.pbuf.set 13 b) = .second →
    ∃ t, step s = .next t ∧ t.frameReady = true ∧ t.hold = true ∧ t.cuc = 14#5

/-! ## The byte operations (40_sync.md) -/

/-- BYTE_IDLE_SYNC1. -/
def Obligations.ByteIdleSync1StartsTheMarker : Prop :=
  (∀ k : BitVec 14, k &&& 0x30FF#14 = 0x0000#14 → decode (.byte k) = .ok (.byteIdleSync1 (k.extractLsb' 8 4)))
  ∧ (∀ s : State, s.sync = syncIdle → decode (.byte (s.byteKey 0x00#8)) = .ok (.byteIdleSync1 s.pbc))
  ∧ ∀ (p : BitVec 4) (s : State), exec (.byteIdleSync1 p) s = .next { s with sync := 0b01#2, pbc := 0#4 }

/-- BYTE_IDLE_SKIP. -/
def Obligations.ByteIdleSkipChangesNothing : Prop :=
  (∀ k : BitVec 14, k &&& 0x3000#14 = 0x0000#14 → k.extractLsb' 0 8 ≠ 0x00#8 →
    decode (.byte k) = .ok (.byteIdleSkip (k.extractLsb' 8 4) (k.extractLsb' 0 8)))
  ∧ (∀ (s : State) (b : Byte), s.sync = syncIdle → b ≠ 0x00#8 → decode (.byte (s.byteKey b)) = .ok (.byteIdleSkip s.pbc b))
  ∧ ∀ (p : BitVec 4) (b : Byte) (s : State), exec (.byteIdleSkip p b) s = .next s

/-- BYTE_SYNC2. -/
def Obligations.ByteSync2OpensAClearedPayload : Prop :=
  (∀ k : BitVec 14, k &&& 0x30FF#14 = 0x1000#14 → decode (.byte k) = .ok (.byteSync2 (k.extractLsb' 8 4)))
  ∧ (∀ s : State, s.sync = syncGotFirst → decode (.byte (s.byteKey 0x00#8)) = .ok (.byteSync2 s.pbc))
  ∧ ∀ (p : BitVec 4) (s : State),
      exec (.byteSync2 p) s = .next { s with sync := 0b10#2, pbuf := Vector.replicate 14 0x00#8, pbc := 0#4 }

/-- BYTE_SYNC_FAIL: nothing but SYNC changes, so the byte is not examined as an Idle byte in that step. -/
def Obligations.ByteSyncFailReturnsToIdle : Prop :=
  (∀ k : BitVec 14, k &&& 0x3000#14 = 0x1000#14 → k.extractLsb' 0 8 ≠ 0x00#8 →
    decode (.byte k) = .ok (.byteSyncFail (k.extractLsb' 8 4) (k.extractLsb' 0 8)))
  ∧ (∀ (s : State) (b : Byte), s.sync = syncGotFirst → b ≠ 0x00#8 →
      decode (.byte (s.byteKey b)) = .ok (.byteSyncFail s.pbc b))
  ∧ ∀ (p : BitVec 4) (b : Byte) (s : State), exec (.byteSyncFail p b) s = .next { s with sync := 0b00#2 }

/-- The inference of R120: examining a rejected byte again as an Idle byte would change nothing. -/
def Obligations.RejectedByteExaminedAgainWouldChangeNothing : Prop :=
  ∀ (s t u : State) (b : Byte) (i j : Instr), s.sync = syncGotFirst → b ≠ 0x00#8 →
      decode (.byte (s.byteKey b)) = .ok i → exec i s = .next t →
      decode (.byte (t.byteKey b)) = .ok j → exec j t = .next u → u = t

/-- BYTE_PAYLOAD_APPEND: PBUF[PBC] takes the byte, every other byte stays, PBC counts up and SYNC stays InPayload. -/
def Obligations.BytePayloadAppendStoresAtTheCount : Prop :=
  (∀ k : BitVec 14, k &&& 0x3000#14 = 0x2000#14 → (k.extractLsb' 8 4).toNat ≤ 12 →
    decode (.byte k) = .ok (.bytePayloadAppend (k.extractLsb' 8 4) (k.extractLsb' 0 8)))
  ∧ (∀ (s : State) (b : Byte), s.sync = syncInPayload → s.pbc.toNat ≤ 12 →
      decode (.byte (s.byteKey b)) = .ok (.bytePayloadAppend s.pbc b))
  ∧ ∀ (b : Byte) (s : State), s.sync = syncInPayload → s.pbc.toNat ≤ 12 →
      ∃ t, exec (.bytePayloadAppend s.pbc b) s = .next t
        ∧ (∀ j (hj : j < 14), t.pbuf[j] = if j = s.pbc.toNat then b else s.pbuf[j])
        ∧ t.pbc.toNat = s.pbc.toNat + 1
        ∧ t.sync = syncInPayload
        ∧ { t with pbuf := s.pbuf, pbc := s.pbc } = s

/-- BYTE_PAYLOAD_LAST: the byte is stored, the payload is decoded and committed, and SYNC is Idle whatever the decode does. That no
lane of the decode remains is the model's choice (log 3). -/
def Obligations.BytePayloadLastDecodesAndReturnsToIdle : Prop :=
  (∀ k : BitVec 14, k &&& 0x3F00#14 = 0x2D00#14 → decode (.byte k) = .ok (.bytePayloadLast (k.extractLsb' 0 8)))
  ∧ (∀ (s : State) (b : Byte), s.sync = syncInPayload → s.pbc = 13#4 →
      decode (.byte (s.byteKey b)) = .ok (.bytePayloadLast b))
  ∧ ∀ (b : Byte) (s : State),
      ∃ t, exec (.bytePayloadLast b) s = .next t
        ∧ t.sync = syncIdle ∧ t.pbc = 14#4 ∧ t.pbuf = s.pbuf.set 13 b
        ∧ HalfFrameEffect s t (s.pbuf.set 13 b)
        ∧ t.lanes = []
        ∧ { t with
            sync := s.sync, pbc := s.pbc, pbuf := s.pbuf, chPop := s.chPop, chPw := s.chPw, cuc := s.cuc,
            frameReady := s.frameReady, hold := s.hold, lanes := s.lanes } = s

/-- BYTE_PAYLOAD_OVERRUN, and that no state of R35 selects it. -/
def Obligations.BytePayloadOverrunFallsBackToIdle : Prop :=
  (∀ k : BitVec 14, k &&& 0x3E00#14 = 0x2E00#14 →
    decode (.byte k) = .ok (.bytePayloadOverrun (k.extractLsb' 8 1) (k.extractLsb' 0 8)))
  ∧ (∀ (s : State) (b : Byte), s.sync = syncInPayload → 14 ≤ s.pbc.toNat →
      decode (.byte (s.byteKey b)) = .ok (.bytePayloadOverrun (s.pbc.extractLsb' 0 1) b))
  ∧ (∀ (p : BitVec 1) (b : Byte) (s : State), exec (.bytePayloadOverrun p b) s = .next { s with sync := 0b00#2 })
  ∧ ∀ (s : State) (b b' : Byte) (p : BitVec 1), s.Inv → decode (.byte (s.byteKey b)) ≠ .ok (.bytePayloadOverrun p b')

/-- BYTE_ILLEGAL_STATE, and that no state of R35 selects it. -/
def Obligations.ByteIllegalStateFallsBackToIdle : Prop :=
  (∀ k : BitVec 14, k &&& 0x3000#14 = 0x3000#14 →
    decode (.byte k) = .ok (.byteIllegalState (k.extractLsb' 8 4) (k.extractLsb' 0 8)))
  ∧ (∀ (s : State) (b : Byte), s.sync = syncIllegal → decode (.byte (s.byteKey b)) = .ok (.byteIllegalState s.pbc b))
  ∧ (∀ (p : BitVec 4) (b : Byte) (s : State), exec (.byteIllegalState p b) s = .next { s with sync := 0b00#2 })
  ∧ ∀ (s : State) (b b' : Byte) (p : BitVec 4), s.Inv → decode (.byte (s.byteKey b)) ≠ .ok (.byteIllegalState p b')

/-! ## The payload decoder (41_decode.md) -/

/-- DECODE_WORD: CHID, PW and V of a word by division. That they are appended to the lanes of the decode is the model's choice
(log 3). -/
def Obligations.DecodeWordReadsIdWidthAndValidity : Prop :=
  ∀ (w : PayloadWord) (s : State), decode (.word w) = .ok (.decodeWord w)
    ∧ ∃ l : Lane, exec (.decodeWord w) s = .next { s with lanes := s.lanes ++ [l] }
      ∧ l.chid.toNat = w.toNat / 1024 % 32
      ∧ l.pw.toNat = 2 * (w.toNat % 1024)
      ∧ (l.valid = true ↔ 172 ≤ l.pw.toNat ∧ l.pw.toNat ≤ 1810 ∧ l.chid.toNat < 14)

/-- The inference of R93: a word is valid exactly when its raw value lies in 86 to 905 and its channel id is at most 13. -/
def Obligations.WordIsValidByRawBounds : Prop :=
  ∀ w : PayloadWord, (laneDecode w).valid = true ↔
    86 ≤ w.toNat % 1024 ∧ w.toNat % 1024 ≤ 905 ∧ w.toNat / 1024 % 32 ≤ 13

/-- A half-frame is valid exactly when each of its seven words is, and MID is bit 7 of the first byte. -/
def Obligations.HalfFrameIsValidIffAllSevenWordsAre : Prop :=
  ∀ p : Payload,
    (halfKind p ≠ .discard ↔ ∀ k, k < 7 → (laneDecode (payloadByte p (2 * k) ++ payloadByte p (2 * k + 1))).valid = true)
    ∧ (halfKind p = .second → 128 ≤ (payloadByte p 0).toNat) ∧ (halfKind p = .first → (payloadByte p 0).toNat < 128)

/-- HF_DISCARD: CUC is 0, and the store and the flags stay. The lanes of the decode are no state of the block (log 3). -/
def Obligations.HfDiscardResetsTheCountOnly : Prop :=
  (∀ k : BitVec 2, k &&& 0b01#2 = 0b00#2 → decode (.half k) = .ok (.hfDiscard (k.extractLsb' 1 1)))
  ∧ ∀ (m : BitVec 1) (s : State), ∃ t, exec (.hfDiscard m) s = .next t
      ∧ t.cuc = 0#5 ∧ { t with cuc := s.cuc, lanes := s.lanes } = s

/-- HF_COMMIT0 under both values of ID0_POLICY, on the seven valid lanes of a decode: the lanes are stored, the other slots emptied
or kept, CUC is 7 whatever it was, and the flags stay. -/
def Obligations.HfCommit0StoresAndSetsTheCountToSeven : Prop :=
  (∀ k : BitVec 2, k &&& 0b11#2 = 0b01#2 → decode (.half k) = .ok .hfCommit0)
  ∧ ∀ s : State, s.lanes.length = 7 → (∀ l ∈ s.lanes, l.valid = true) →
      ∃ t, exec .hfCommit0 s = .next t
        ∧ SlotsWritten s t s.lanes (decide (s.id0Policy = .replace))
        ∧ t.cuc = 7#5
        ∧ { t with chPop := s.chPop, chPw := s.chPw, cuc := s.cuc, lanes := s.lanes } = s

/-- HF_COMMIT1 on the seven valid lanes of a decode: the lanes are merged, CUC counts up by 7 and saturates at 31, and both flags are
set exactly when the new count is 14. -/
def Obligations.HfCommit1MergesAndCompletesAtFourteen : Prop :=
  (∀ k : BitVec 2, k &&& 0b11#2 = 0b11#2 → decode (.half k) = .ok .hfCommit1)
  ∧ ∀ s : State, s.lanes.length = 7 → (∀ l ∈ s.lanes, l.valid = true) →
      ∃ t, exec .hfCommit1 s = .next t
        ∧ SlotsWritten s t s.lanes false
        ∧ t.cuc.toNat = min (s.cuc.toNat + 7) 31
        ∧ (t.cuc = 14#5 → t.frameReady = true ∧ t.hold = true)
        ∧ (t.cuc ≠ 14#5 → t.frameReady = s.frameReady ∧ t.hold = s.hold)
        ∧ { t with
            chPop := s.chPop, chPw := s.chPw, cuc := s.cuc, lanes := s.lanes, frameReady := s.frameReady,
            hold := s.hold } = s

/-- Inside a BYTE_PAYLOAD_LAST step the commit is the operation that the HALF key selects, run on the decoded lanes. -/
def Obligations.CommitOfADecodeIsTheHalfKeysRow : Prop :=
  ∀ (s : State) (mid : Bool), ∃ i, decode (.half (halfKey mid (allValid s.lanes))) = .ok i
    ∧ exec i s = .next (s.commitHalf mid)

/-- Two lanes of one channel: the later one's PW is stored, by either commit, and the count changes as for any half-frame. -/
def Obligations.LaterLaneOfAChannelWins : Prop :=
  ∀ (s : State) (k k' : Nat) (hk : k < s.lanes.length) (hk' : k' < s.lanes.length), s.lanes.length = 7 →
    (∀ l ∈ s.lanes, l.valid = true ∧ l.chid.toNat < 14) → k < k' → s.lanes[k].chid = s.lanes[k'].chid →
    (∀ j (hj : j < s.lanes.length), k' < j → s.lanes[j].chid ≠ s.lanes[k'].chid) →
    (∃ t, exec .hfCommit0 s = .next t ∧ t.slotPw s.lanes[k'].chid.toNat = s.lanes[k'].pw ∧ t.cuc = 7#5)
    ∧ (∃ t, exec .hfCommit1 s = .next t ∧ t.slotPw s.lanes[k'].chid.toNat = s.lanes[k'].pw
        ∧ t.cuc.toNat = min (s.cuc.toNat + 7) 31)

/-- A decode changes a slot only to empty it or to an even value in [172, 1810], from every state. -/
def Obligations.OutOfRangeValuesAreNeverStored : Prop :=
  ∀ (s t : State) (b : Byte) (c : Nat), c < 14 → exec (.bytePayloadLast b) s = .next t →
    (t.populated c = s.populated c ∧ t.slotPw c = s.slotPw c) ∨ slotLegal (t.populated c) (t.slotPw c)

/-- A frame presented from Idle with HOLD = 0: its 16 bytes are accepted and its payload is decoded once, whatever its bytes are. -/
def Obligations.WholeFrameIsDecodedOnce : Prop :=
  ∀ (s : State) (p : Payload), s.sync = syncIdle → s.hold = false →
    ∃ t, runPins (framePins p) s = .next t
      ∧ t.sync = syncIdle ∧ t.pbc = 14#4 ∧ t.pbuf = p ∧ t.inReady = true
      ∧ HalfFrameEffect s t p

/-- Any sequence of frames, RELEASE after each: CUC is min(n, 31) for the source's unbounded count n, and a frame sets FRAME_READY
exactly when it completes a cycle for n. -/
def Obligations.CounterAgreesWithTheUnboundedCount : Prop :=
  ∀ (ps : List Payload) (s : State) (n : Nat), s.sync = syncIdle → s.hold = false → s.cuc.toNat = min n 31 →
    ∃ t, runPins (releasedFrames ps) s = .next t
      ∧ t.cuc.toNat = min (ps.foldl unboundedCount n) 31
      ∧ t.frameReady = (s.frameReady || anyCompletes n ps)
      ∧ t.sync = syncIdle ∧ t.hold = false

/-- The normal cycle: a valid id=0 frame and then a valid id=1 frame complete, from any count. -/
def Obligations.FirstThenSecondHalfCompletesACycle : Prop :=
  ∀ (s : State) (p q : Payload), s.sync = syncIdle → s.hold = false → halfKind p = .first → halfKind q = .second →
    ∃ t, runPins (framePins p ++ framePins q) s = .next t
      ∧ t.cuc = 14#5 ∧ t.frameReady = true ∧ t.hold = true ∧ t.sync = syncIdle

/-! ## The registers (10_state.md R32, R33, 42_store.md, 43_host.md R214 to R217) -/

/-- RD_STATUS; in the states of R35 the SYNC field is never 0b11. -/
def Obligations.RdStatusShowsEveryField : Prop :=
  (∀ d, decode (.reg 0x000#9 d) = .ok .rdStatus)
  ∧ ∀ s : State, ∃ v : RegWord, exec .rdStatus s = .next { s with regRdata := v }
      ∧ v.getLsbD 0 = s.frameReady ∧ v.getLsbD 1 = s.hold ∧ v.extractLsb' 2 2 = s.sync ∧ v.extractLsb' 4 4 = s.pbc
      ∧ v.extractLsb' 8 5 = s.cuc ∧ v.extractLsb' 13 3 = 0#3
      ∧ (∀ c (hc : c < 14), v.getLsbD (16 + c) = s.chPop[c]) ∧ v.extractLsb' 30 2 = 0#2
      ∧ (s.Inv → v.extractLsb' 2 2 ≠ 0b11#2)

/-- RD_CH_RAW; in the states of R35 an unpopulated slot reads 0 and a populated one an even width in 172 to 1810. -/
def Obligations.RdChRawShowsTheSlot : Prop :=
  (∀ (c : BitVec 4) (d : RegWord), c ≤ 13#4 → decode (.reg (0b00001#5 ++ c) d) = .ok (.rdChRaw c))
  ∧ ∀ (c : BitVec 4) (hc : c.toNat < 14) (s : State), ∃ v : RegWord, exec (.rdChRaw c) s = .next { s with regRdata := v }
      ∧ v.toNat = (if s.chPop[c.toNat] then 65536 else 0) + (s.chPw[c.toNat]).toNat
      ∧ (s.Inv → (s.chPop[c.toNat] = false → v = 0x00000000#32)
        ∧ (s.chPop[c.toNat] = true →
          172 ≤ (s.chPw[c.toNat]).toNat ∧ (s.chPw[c.toNat]).toNat ≤ 1810 ∧ (s.chPw[c.toNat]).toNat % 2 = 0))

/-- RD_CH_OFS: PWEFF(c) - 991 as a 32-bit two's complement value. -/
def Obligations.RdChOfsIsTheExactOffset : Prop :=
  (∀ (c : BitVec 4) (d : RegWord), c ≤ 13#4 → decode (.reg (0b00010#5 ++ c) d) = .ok (.rdChOfs c))
  ∧ ∀ (c : BitVec 4) (hc : c.toNat < 14) (s : State), ∃ v : RegWord, exec (.rdChOfs c) s = .next { s with regRdata := v }
      ∧ v.toInt = (if s.chPop[c.toNat] then ((s.chPw[c.toNat]).toNat : Int) else 0) - 991

/-- RD_CH_NORM_LO and RD_CH_NORM_HI: the two halves of the binary64 value nearest to (PWEFF(c) - 991) / 819, ties to even. -/
def Obligations.RdChNormHalvesAreTheRoundedQuotient : Prop :=
  (∀ (c : BitVec 4) (d : RegWord), c ≤ 13#4 → decode (.reg (0b0010#4 ++ c ++ 0b0#1) d) = .ok (.rdChNormLo c)
    ∧ decode (.reg (0b0010#4 ++ c ++ 0b1#1) d) = .ok (.rdChNormHi c))
  ∧ ∀ (c : BitVec 4) (hc : c.toNat < 14) (s : State), ∃ x : BitVec 64,
      IsRne64 x (((if s.chPop[c.toNat] then ((s.chPw[c.toNat]).toNat : ℚ) else 0) - 991) / 819)
      ∧ exec (.rdChNormLo c) s = .next { s with regRdata := x.extractLsb' 0 32 }
      ∧ exec (.rdChNormHi c) s = .next { s with regRdata := x.extractLsb' 32 32 }

/-- The corner values of normalization. -/
def Obligations.NormCornerValues : Prop :=
  ∀ (s : State) (c : Nat), c < 14 →
    (s.populated c = false → s.norm c = 0xBFF35C35C35C35C3#64)
    ∧ (s.populated c = true → s.slotPw c = 172#11 → s.norm c = 0xBFF0000000000000#64)
    ∧ (s.populated c = true → s.slotPw c = 174#11 → s.norm c = 0xBFEFEBFEBFEBFEC0#64)
    ∧ (s.populated c = true → s.slotPw c = 990#11 → s.norm c = 0xBF54014014014014#64)
    ∧ (s.populated c = true → s.slotPw c = 992#11 → s.norm c = 0x3F54014014014014#64)
    ∧ (s.populated c = true → s.slotPw c = 1000#11 → s.norm c = 0x3F86816816816817#64)
    ∧ (s.populated c = true → s.slotPw c = 1200#11 → s.norm c = 0x3FD0550550550550#64)
    ∧ (s.populated c = true → s.slotPw c = 1500#11 → s.norm c = 0x3FE3E33E33E33E34#64)
    ∧ (s.populated c = true → s.slotPw c = 1808#11 → s.norm c = 0x3FEFEBFEBFEBFEC0#64)
    ∧ (s.populated c = true → s.slotPw c = 1810#11 → s.norm c = 0x3FF0000000000000#64)

/-- In the states of R35 the offset of a populated slot is odd and within 819 of 0, that of an unpopulated one is -991, so none is 0. -/
def Obligations.OffsetsAreOddAndBounded : Prop :=
  ∀ (s : State) (c : Nat), s.Inv → c < 14 →
    (s.populated c = true → -819 ≤ s.ofs c ∧ s.ofs c ≤ 819 ∧ s.ofs c % 2 = 1)
    ∧ (s.populated c = false → s.ofs c = -991)
    ∧ s.ofs c ≠ 0
    ∧ (s.chOfsReg c).toInt = s.ofs c

/-- RD_RESERVED, all four rows: every address of R217 reads 0. -/
def Obligations.ReservedReadsAreZero : Prop :=
  (∀ (a : RegAddr) (d : RegWord) (s : State),
    (0x01 ≤ a.toNat ∧ a.toNat ≤ 0x0F) ∨ (0x1E ≤ a.toNat ∧ a.toNat ≤ 0x1F) ∨ (0x2E ≤ a.toNat ∧ a.toNat ≤ 0x3F)
      ∨ 0x5C ≤ a.toNat →
    ∃ i, decode (.reg (0#1 ++ a) d) = .ok i
      ∧ ((∃ x, i = .rdReserved1E x) ∨ (∃ x, i = .rdReserved2E x) ∨ (∃ x, i = .rdReserved5C x) ∨ i = .rdReservedOther a)
      ∧ exec i s = .next { s with regRdata := 0x00000000#32 })
  ∧ (∀ (x : BitVec 1) (s : State), exec (.rdReserved1E x) s = .next { s with regRdata := 0x00000000#32 })
  ∧ (∀ (x : BitVec 1) (s : State), exec (.rdReserved2E x) s = .next { s with regRdata := 0x00000000#32 })
  ∧ (∀ (x : BitVec 2) (s : State), exec (.rdReserved5C x) s = .next { s with regRdata := 0x00000000#32 })
  ∧ ∀ (a : RegAddr) (s : State), exec (.rdReservedOther a) s = .next { s with regRdata := 0x00000000#32 }

/-- WR_CONTROL: CLEAR and RELEASE, each by its bit; nothing else changes. -/
def Obligations.WrControlClearsAndReleases : Prop :=
  (∀ v : RegWord, decode (.reg 0x101#9 v) = .ok (.wrControl v))
  ∧ ∀ (v : RegWord) (s : State), exec (.wrControl v) s = .next { s with
      frameReady := if v.getLsbD 0 then false else s.frameReady
      hold := if v.getLsbD 1 then false else s.hold }

/-- WR_IGNORED: a write to any address but 0x01 changes nothing. -/
def Obligations.WrIgnoredChangesNothing : Prop :=
  (∀ (a : RegAddr) (v : RegWord), a ≠ 0x01#8 → decode (.reg (1#1 ++ a) v) = .ok (.wrIgnored a v))
  ∧ ∀ (a : RegAddr) (v : RegWord) (s : State), exec (.wrIgnored a v) s = .next s

/-- CLEAR and RELEASE leave every channel register as it was. -/
def Obligations.ChannelRegistersSurviveClearAndRelease : Prop :=
  ∀ (v : RegWord) (s : State), ∃ t, exec (.wrControl v) s = .next t
    ∧ ∀ a : RegAddr, 0x10 ≤ a.toNat → t.regRead a = s.regRead a

/-! ## Reset (70_reset_and_hazards.md R270) -/

/-- RESET: every element takes its reset value, no byte is accepted and reg_rdata is 0; and in a step with rst = 1 nothing but RESET
runs, whatever the other pins are, so that a write is ignored. -/
def Obligations.ResetStepTakesEveryResetValue : Prop :=
  (decode (.rst 1#1) = .ok .reset)
  ∧ (∀ s : State, ∃ t, exec .reset s = .next t ∧ t.HasResetValues ∧ t.inReady = false ∧ t.regRdata = 0#32)
  ∧ ∀ s : State, s.nextPins.rst = true →
      ∃ t, step s = .next t ∧ t.HasResetValues ∧ t.inReady = false ∧ t.regRdata = 0#32 ∧ t.statusReg = 0x00000000#32

/-- The state after reset has the values R21 to R28 give, STATUS reads 0, and the parameter has its default (log 2). -/
def Obligations.ResetStateHoldsTheSpecsValues : Prop :=
  State.reset.HasResetValues ∧ State.reset.statusReg = 0x00000000#32 ∧ State.reset.id0Policy = .replace

/-- The model's choice (log 1, log 2, log 3): a reset step leaves the parameter and the coming pins, and no lane remains. -/
def Obligations.ResetKeepsTheParameterAndTheComingPins : Prop :=
  ∀ s : State, s.nextPins.rst = true →
    ∃ t, step s = .next t ∧ t.id0Policy = s.id0Policy ∧ t.inputs = s.inputs.tail ∧ t.lanes = []

/-! ## The whole machine -/

/-- R35(a) to (d) hold at reset. -/
def Obligations.ReachableStateRulesHoldAtReset : Prop := State.reset.Inv

/-- Every step keeps R35(a) to (d), under either policy and whatever the pins are. -/
def Obligations.EveryStepKeepsTheReachableStateRules : Prop :=
  ∀ s t : State, s.Inv → step s = .next t → t.Inv

/-- R35(e): HOLD = 1 implies FRAME_READY = 1, kept by every step that does not write CLEAR; a step that completes a cycle brings it
about whatever was written. -/
def Obligations.HoldImpliesFrameReadyUnlessCleared : Prop :=
  ∀ s t : State, step s = .next t →
    ((s.hold = true → s.frameReady = true) → s.nextPins.commands 0 = false → (t.hold = true → t.frameReady = true))
    ∧ (s.hold = false → t.hold = true → t.frameReady = true)

/-- FRAME_READY rises only in a completion event and falls only by CLEAR or reset. -/
def Obligations.FrameReadyChangesOnlyByCompletionClearOrReset : Prop :=
  ∀ s t : State, step s = .next t →
    (s.frameReady = false → t.frameReady = true →
      s.accepts s.nextPins = true ∧ s.sync = syncInPayload ∧ s.pbc = 13#4 ∧ t.cuc = 14#5 ∧ t.hold = true
        ∧ halfKind (s.pbuf.set 13 s.nextPins.inData) = .second)
    ∧ (s.frameReady = true → t.frameReady = false → s.nextPins.rst = true ∨ s.nextPins.commands 0 = true)

/-- HOLD rises only in a completion event and falls only by RELEASE or reset. -/
def Obligations.HoldChangesOnlyByCompletionReleaseOrReset : Prop :=
  ∀ s t : State, step s = .next t →
    (s.hold = false → t.hold = true →
      s.accepts s.nextPins = true ∧ s.sync = syncInPayload ∧ s.pbc = 13#4 ∧ t.cuc = 14#5 ∧ t.frameReady = true
        ∧ halfKind (s.pbuf.set 13 s.nextPins.inData) = .second)
    ∧ (s.hold = true → t.hold = false → s.nextPins.rst = true ∨ s.nextPins.commands 1 = true)

/-- The store and the counter change only in a reset step or in the step that accepts a payload's last byte. -/
def Obligations.StoreAndCountChangeOnlyAtAPayloadsLastByte : Prop :=
  ∀ s t : State, step s = .next t → s.nextPins.rst = false →
    ¬(s.accepts s.nextPins = true ∧ s.sync = syncInPayload ∧ s.pbc = 13#4) →
    t.chPop = s.chPop ∧ t.chPw = s.chPw ∧ t.cuc = s.cuc

/-- A step that at most reads a register leaves the block's own state as it is. -/
def Obligations.ReadsAndIdleStepsHaveNoSideEffect : Prop :=
  ∀ s : State, s.nextPins.asksNothing = true → ∃ t, step s = .next t ∧ t.own = s.own

/-- The stall: over any run in which HOLD is 1 at its start and no step releases or resets, HOLD stays 1, every in_ready is 0 and
only FRAME_READY can change. -/
def Obligations.HoldStallsTheBlockUntilReleaseOrReset : Prop :=
  ∀ (ps : List Pins) (s : State), s.hold = true → (∀ p ∈ ps, p.rst = false ∧ p.commands 1 = false) →
    ∃ t, runPins ps s = .next t ∧ t.hold = true ∧ (ps ≠ [] → t.inReady = false)
      ∧ { t.own with frameReady := s.frameReady } = s.own

/-- Steps that ask nothing of the block can be put into a run, or taken out of it, without changing the block's own final state. -/
def Obligations.IdleStepsBetweenBytesDoNotMatter : Prop :=
  ∀ (ps : List Pins) (s : State),
    ∃ t u, runPins ps s = .next t ∧ runPins (ps.filter (fun p => !p.asksNothing)) s = .next u ∧ t.own = u.own

/-- The block's byte step is the source's parser on that byte: from corresponding states an accepted byte leads to corresponding
states, and HOLD is set exactly when the parser completes a frame. -/
def Obligations.ByteStepRefinesTheParser : Prop :=
  ∀ (s : State) (q : Parser) (b : Byte) (rest : List Pins), s.Corresponds q → s.hold = false → s.inputs = bytePins b :: rest →
    ∃ t, step s = .next t ∧ t.Corresponds (q.feed s.id0Policy b.toNat) ∧ t.hold = q.completesAt b.toNat

/-- The reset state corresponds to a fresh parser, under the default policy. -/
def Obligations.ResetCorrespondsToAFreshParser : Prop :=
  State.reset.Corresponds ⟨.idle, 0, [], fun _ => none, 0, false⟩

/-- Bytes of PBUF that no rule reads can never be observed: a step from two states that differ in such bytes only gives two states
that again differ in such bytes only, with the same outputs. -/
def Obligations.StalePayloadBytesAreUnobservable : Prop :=
  ∀ s t : State, SameButStaleBytes s t →
    ∃ s' t', step s = .next s' ∧ step t = .next t' ∧ SameButStaleBytes s' t'
      ∧ (∀ a : RegAddr, t.regRead a = s.regRead a)

/-- No step changes ID0_POLICY, which is a parameter and no state (log 2). -/
def Obligations.PolicyIsNeverWritten : Prop :=
  ∀ s t : State, step s = .next t → t.id0Policy = s.id0Policy
end

