-- ==== Sys2Proof/Laws/Decode.lean ====
section
/-! SUPPORT. What the decoder answers, once for each format: a BYTE key by the fields SYNC, PBC and byte that make it, a HALF key by
MID and ALLV, a REG key by its write bit and its address. -/

namespace Sys2Proof

theorem append_eq_append_iff_parts {m n : Nat} (a c : BitVec m) (b d : BitVec n) :
    a ++ b = c ++ d ↔ a = c ∧ b = d := by
  constructor
  · intro h
    have hi := congrArg (fun x => x.extractLsb' n m) h
    have lo := congrArg (fun x => x.extractLsb' 0 n) h

    rw [BitVec.extractLsb'_append_eq_of_le (Nat.le_refl n), BitVec.extractLsb'_append_eq_of_le (Nat.le_refl n)] at hi
    rw [BitVec.extractLsb'_append_eq_of_add_le (by omega), BitVec.extractLsb'_append_eq_of_add_le (by omega)] at lo
    simp at hi lo
    exact ⟨hi, lo⟩
  · rintro ⟨rfl, rfl⟩; rfl

/-- Match and mask of a BYTE row, read field by field. -/
theorem byteKey_fits (y my py : BitVec 2) (p mp pp : BitVec 4) (b mb pb : Byte) :
    (y ++ p ++ b) &&& (my ++ mp ++ mb) = py ++ pp ++ pb ↔ y &&& my = py ∧ p &&& mp = pp ∧ b &&& mb = pb := by
  rw [BitVec.and_append, BitVec.and_append, append_eq_append_iff_parts, append_eq_append_iff_parts, and_assoc]

theorem byteKey_sync (y : BitVec 2) (p : BitVec 4) (b : Byte) : (y ++ p ++ b).extractLsb' 12 2 = y := by
  rw [BitVec.extractLsb'_append_eq_of_le (by omega), BitVec.extractLsb'_append_eq_of_le (by omega)]; simp

theorem byteKey_pbc (y : BitVec 2) (p : BitVec 4) (b : Byte) : (y ++ p ++ b).extractLsb' 8 4 = p := by
  rw [BitVec.extractLsb'_append_eq_of_le (by omega), BitVec.extractLsb'_append_eq_of_add_le (by omega)]; simp

theorem byteKey_pbcBit (y : BitVec 2) (p : BitVec 4) (b : Byte) : (y ++ p ++ b).extractLsb' 8 1 = p.extractLsb' 0 1 := by
  rw [BitVec.extractLsb'_append_eq_of_le (by omega), BitVec.extractLsb'_append_eq_of_add_le (by omega)]

theorem byteKey_byte (y : BitVec 2) (p : BitVec 4) (b : Byte) : (y ++ p ++ b).extractLsb' 0 8 = b := by
  rw [BitVec.extractLsb'_append_eq_of_add_le (by omega)]; simp

/-- Every BYTE key is the three fields put together. -/
theorem byteKey_split (k : BitVec 14) : k = k.extractLsb' 12 2 ++ k.extractLsb' 8 4 ++ k.extractLsb' 0 8 := by
  apply BitVec.eq_of_getLsbD_eq
  intro i hi
  simp only [BitVec.getLsbD_append, BitVec.getLsbD_extractLsb']
  split
  · simp_all
  · split
    · have : i - 8 < 4 := by omega
      simp_all
    · have : i - 8 - 4 < 2 := by omega
      simp_all
      congr 1; omega

/-- The operation of a BYTE key by its fields (30_encoding.md R87). -/
def byteOperation (y : BitVec 2) (p : BitVec 4) (b : Byte) : Instr :=
  if y = 0b00#2 then (if b = 0x00#8 then .byteIdleSync1 p else .byteIdleSkip p b)
  else if y = 0b01#2 then (if b = 0x00#8 then .byteSync2 p else .byteSyncFail p b)
  else if y = 0b10#2 then
    (if p = 13#4 then .bytePayloadLast b
     else if 14#4 ≤ p then .bytePayloadOverrun (p.extractLsb' 0 1) b
     else .bytePayloadAppend p b)
  else .byteIllegalState p b

theorem byteRow_fits {y my py : BitVec 2} {p mp pp : BitVec 4} {b mb pb : Byte} {mask pattern : BitVec 14}
    (hm : mask = my ++ mp ++ mb) (hp : pattern = py ++ pp ++ pb) :
    ((y ++ p ++ b) &&& mask == pattern) = decide (y &&& my = py ∧ p &&& mp = pp ∧ b &&& mb = pb) := by
  subst hm hp
  rw [Bool.eq_iff_iff, beq_iff_eq, decide_eq_true_iff]
  exact byteKey_fits ..

theorem and_allOnes8 (b : Byte) : (b &&& 0xFF#8 = 0x00#8) ↔ b = 0x00#8 := by
  rw [show (0xFF#8 : Byte) = BitVec.allOnes 8 from rfl, BitVec.and_allOnes]

theorem decode_byte (y : BitVec 2) (p : BitVec 4) (b : Byte) :
    decode (.byte (y ++ p ++ b)) = .ok (byteOperation y p b) := by
  simp only [decode, firstRow, byteRows, Row.fits, List.find?_cons, List.find?_nil,
    byteRow_fits (show (0x30FF#14 : BitVec 14) = 0b11#2 ++ 0#4 ++ 0xFF#8 from rfl)
      (show (0x0000#14 : BitVec 14) = 0b00#2 ++ 0#4 ++ 0x00#8 from rfl),
    byteRow_fits (show (0x30FF#14 : BitVec 14) = 0b11#2 ++ 0#4 ++ 0xFF#8 from rfl)
      (show (0x1000#14 : BitVec 14) = 0b01#2 ++ 0#4 ++ 0x00#8 from rfl),
    byteRow_fits (show (0x3F00#14 : BitVec 14) = 0b11#2 ++ 15#4 ++ 0x00#8 from rfl)
      (show (0x2D00#14 : BitVec 14) = 0b10#2 ++ 13#4 ++ 0x00#8 from rfl),
    byteRow_fits (show (0x3E00#14 : BitVec 14) = 0b11#2 ++ 14#4 ++ 0x00#8 from rfl)
      (show (0x2E00#14 : BitVec 14) = 0b10#2 ++ 14#4 ++ 0x00#8 from rfl),
    byteRow_fits (show (0x3000#14 : BitVec 14) = 0b11#2 ++ 0#4 ++ 0x00#8 from rfl)
      (show (0x3000#14 : BitVec 14) = 0b11#2 ++ 0#4 ++ 0x00#8 from rfl),
    byteRow_fits (show (0x3000#14 : BitVec 14) = 0b11#2 ++ 0#4 ++ 0x00#8 from rfl)
      (show (0x0000#14 : BitVec 14) = 0b00#2 ++ 0#4 ++ 0x00#8 from rfl),
    byteRow_fits (show (0x3000#14 : BitVec 14) = 0b11#2 ++ 0#4 ++ 0x00#8 from rfl)
      (show (0x1000#14 : BitVec 14) = 0b01#2 ++ 0#4 ++ 0x00#8 from rfl),
    byteRow_fits (show (0x3000#14 : BitVec 14) = 0b11#2 ++ 0#4 ++ 0x00#8 from rfl)
      (show (0x2000#14 : BitVec 14) = 0b10#2 ++ 0#4 ++ 0x00#8 from rfl),
    and_allOnes8, BitVec.and_zero, and_true, byteOperation]
  have hp : ∀ p : BitVec 4, (p &&& 15#4 = 13#4 ↔ p = 13#4) ∧ (p &&& 14#4 = 14#4 ↔ 14#4 ≤ p) := by decide
  have hy : ∀ y : BitVec 2, y = 0#2 ∨ y = 1#2 ∨ y = 2#2 ∨ y = 3#2 := by decide
  simp only [(hp p).1, (hp p).2]
  obtain rfl | rfl | rfl | rfl := hy y
  · by_cases hb : b = 0x00#8 <;> simp [hb, byteKey_pbc, byteKey_byte]
  · by_cases hb : b = 0x00#8 <;> simp [hb, byteKey_pbc, byteKey_byte]
  · by_cases h1 : p = 13#4
    · simp only [h1]; exact congrArg (fun x => Except.ok (Instr.bytePayloadLast x)) (byteKey_byte 2#2 13#4 b)
    · by_cases h2 : 14#4 ≤ p <;> simp [h1, h2, byteKey_pbc, byteKey_pbcBit, byteKey_byte]
  · simp [byteKey_pbc, byteKey_byte]

theorem decode_word (w : PayloadWord) : decode (.word w) = .ok (.decodeWord w) := by
  simp [decode, firstRow, wordRows, Row.fits]

theorem decode_half (m v : BitVec 1) :
    decode (.half (m ++ v)) = .ok (if v = 0#1 then .hfDiscard m else if m = 1#1 then .hfCommit1 else .hfCommit0) := by
  revert m v; decide

/-- The operation of a register read by its address (30_encoding.md R89). -/
def readOperation (a : RegAddr) : Instr :=
  if a = 0x00#8 then .rdStatus
  else if 0x1E#8 ≤ a ∧ a ≤ 0x1F#8 then .rdReserved1E (a.extractLsb' 0 1)
  else if 0x2E#8 ≤ a ∧ a ≤ 0x2F#8 then .rdReserved2E (a.extractLsb' 0 1)
  else if 0x5C#8 ≤ a ∧ a ≤ 0x5F#8 then .rdReserved5C (a.extractLsb' 0 2)
  else if 0x10#8 ≤ a ∧ a ≤ 0x1F#8 then .rdChRaw (a.extractLsb' 0 4)
  else if 0x20#8 ≤ a ∧ a ≤ 0x2F#8 then .rdChOfs (a.extractLsb' 0 4)
  else if 0x40#8 ≤ a ∧ a ≤ 0x5F#8 ∧ a.extractLsb' 0 1 = 0#1 then .rdChNormLo (a.extractLsb' 1 4)
  else if 0x40#8 ≤ a ∧ a ≤ 0x5F#8 ∧ a.extractLsb' 0 1 = 1#1 then .rdChNormHi (a.extractLsb' 1 4)
  else .rdReservedOther a

/-- A row's match and mask on a read key, as the range of addresses it takes. -/
theorem readRow_fits (a : RegAddr) :
    ((0#1 ++ a) &&& 0x1FF#9 == 0x000#9) = decide (a = 0x00#8)
    ∧ ((0#1 ++ a) &&& 0x1FF#9 == 0x101#9) = false
    ∧ ((0#1 ++ a) &&& 0x1FE#9 == 0x01E#9) = decide (0x1E#8 ≤ a ∧ a ≤ 0x1F#8)
    ∧ ((0#1 ++ a) &&& 0x1FE#9 == 0x02E#9) = decide (0x2E#8 ≤ a ∧ a ≤ 0x2F#8)
    ∧ ((0#1 ++ a) &&& 0x1FC#9 == 0x05C#9) = decide (0x5C#8 ≤ a ∧ a ≤ 0x5F#8)
    ∧ ((0#1 ++ a) &&& 0x1F0#9 == 0x010#9) = decide (0x10#8 ≤ a ∧ a ≤ 0x1F#8)
    ∧ ((0#1 ++ a) &&& 0x1F0#9 == 0x020#9) = decide (0x20#8 ≤ a ∧ a ≤ 0x2F#8)
    ∧ ((0#1 ++ a) &&& 0x1E1#9 == 0x040#9) = decide (0x40#8 ≤ a ∧ a ≤ 0x5F#8 ∧ a.extractLsb' 0 1 = 0#1)
    ∧ ((0#1 ++ a) &&& 0x1E1#9 == 0x041#9) = decide (0x40#8 ≤ a ∧ a ≤ 0x5F#8 ∧ a.extractLsb' 0 1 = 1#1)
    ∧ ((0#1 ++ a) &&& 0x100#9 == 0x000#9) = true := by
  revert a; decide

/-- A row's fields of a read key, as fields of the address. -/
theorem readKey_fields (a : RegAddr) :
    (0#1 ++ a).extractLsb' 0 1 = a.extractLsb' 0 1 ∧ (0#1 ++ a).extractLsb' 0 2 = a.extractLsb' 0 2
    ∧ (0#1 ++ a).extractLsb' 0 4 = a.extractLsb' 0 4 ∧ (0#1 ++ a).extractLsb' 1 4 = a.extractLsb' 1 4
    ∧ (0#1 ++ a).extractLsb' 0 8 = a := by
  revert a; decide

theorem decode_read (a : RegAddr) (d : RegWord) : decode (.reg (0#1 ++ a) d) = .ok (readOperation a) := by
  obtain ⟨h1, h2, h3, h4, h5, h6, h7, h8, h9, h10⟩ := readRow_fits a
  obtain ⟨k1, k2, k3, k4, k5⟩ := readKey_fields a
  simp only [decode, firstRow, regRows, Row.fits, List.find?_cons, h1, h2, h3, h4, h5, h6, h7, h8, h9, h10, readOperation]
  by_cases c0 : a = 0x00#8
  · simp only [decide_eq_true c0, if_pos c0]
  simp only [decide_eq_false c0, if_neg c0]
  by_cases c1 : 0x1E#8 ≤ a ∧ a ≤ 0x1F#8
  · simp only [decide_eq_true c1, if_pos c1, k1]
  simp only [decide_eq_false c1, if_neg c1]
  by_cases c2 : 0x2E#8 ≤ a ∧ a ≤ 0x2F#8
  · simp only [decide_eq_true c2, if_pos c2, k1]
  simp only [decide_eq_false c2, if_neg c2]
  by_cases c3 : 0x5C#8 ≤ a ∧ a ≤ 0x5F#8
  · simp only [decide_eq_true c3, if_pos c3, k2]
  simp only [decide_eq_false c3, if_neg c3]
  by_cases c4 : 0x10#8 ≤ a ∧ a ≤ 0x1F#8
  · simp only [decide_eq_true c4, if_pos c4, k3]
  simp only [decide_eq_false c4, if_neg c4]
  by_cases c5 : 0x20#8 ≤ a ∧ a ≤ 0x2F#8
  · simp only [decide_eq_true c5, if_pos c5, k3]
  simp only [decide_eq_false c5, if_neg c5]
  by_cases c6 : 0x40#8 ≤ a ∧ a ≤ 0x5F#8 ∧ a.extractLsb' 0 1 = 0#1
  · simp only [decide_eq_true c6, if_pos c6, k4]
  simp only [decide_eq_false c6, if_neg c6]
  by_cases c7 : 0x40#8 ≤ a ∧ a ≤ 0x5F#8 ∧ a.extractLsb' 0 1 = 1#1
  · simp only [decide_eq_true c7, if_pos c7, k4]
  simp only [decide_eq_false c7, if_neg c7, k5]

/-- A row's match and mask on a write key: WR_CONTROL takes 0x01, WR_IGNORED the rest, and no read row a write. -/
theorem writeRow_fits (a : RegAddr) :
    ((1#1 ++ a) &&& 0x1FF#9 == 0x000#9) = false
    ∧ ((1#1 ++ a) &&& 0x1FF#9 == 0x101#9) = decide (a = 0x01#8)
    ∧ ((1#1 ++ a) &&& 0x1FE#9 == 0x01E#9) = false
    ∧ ((1#1 ++ a) &&& 0x1FE#9 == 0x02E#9) = false
    ∧ ((1#1 ++ a) &&& 0x1FC#9 == 0x05C#9) = false
    ∧ ((1#1 ++ a) &&& 0x1F0#9 == 0x010#9) = false
    ∧ ((1#1 ++ a) &&& 0x1F0#9 == 0x020#9) = false
    ∧ ((1#1 ++ a) &&& 0x1E1#9 == 0x040#9) = false
    ∧ ((1#1 ++ a) &&& 0x1E1#9 == 0x041#9) = false
    ∧ ((1#1 ++ a) &&& 0x100#9 == 0x000#9) = false
    ∧ ((1#1 ++ a) &&& 0x100#9 == 0x100#9) = true
    ∧ (1#1 ++ a).extractLsb' 0 8 = a := by
  revert a; decide

theorem decode_write (a : RegAddr) (d : RegWord) :
    decode (.reg (1#1 ++ a) d) = .ok (if a = 0x01#8 then .wrControl d else .wrIgnored a d) := by
  obtain ⟨h1, h2, h3, h4, h5, h6, h7, h8, h9, h10, h11, h12⟩ := writeRow_fits a
  simp only [decode, firstRow, regRows, Row.fits, List.find?_cons, h1, h2, h3, h4, h5, h6, h7, h8, h9, h10, h11]
  by_cases h : a = 0x01#8 <;> simp only [h, decide_true, decide_false, if_true, if_false, h12]

/-- Every REG key is a write bit and an address. -/
theorem regKey_split (k : BitVec 9) : k = k.extractLsb' 8 1 ++ k.extractLsb' 0 8 := by
  revert k; decide

theorem decode_rst : decode (.rst 1#1) = .ok .reset := rfl

end Sys2Proof
end

