-- ==== Sys2Proof/Laws/Operands.lean ====
section
/-! SUPPORT. What the arithmetic of the normalizer does, said once: the rounded quotient and the scaling of the significand. -/

namespace Sys2Proof.Machine

/-- The rounded quotient is within half a unit of n / d, and where it is exactly half a unit away it is even. -/
theorem roundedQuotient_spec (n d : Nat) (hd : 0 < d) :
    2 * (roundedQuotient n d * d) ≤ 2 * n + d ∧ 2 * n ≤ 2 * (roundedQuotient n d * d) + d
    ∧ (2 * (roundedQuotient n d * d) = 2 * n + d ∨ 2 * n = 2 * (roundedQuotient n d * d) + d →
      roundedQuotient n d % 2 = 0) := by
  have e := Nat.div_add_mod n d
  have l := Nat.mod_lt n hd
  unfold roundedQuotient
  simp only [Bool.or_eq_true, Bool.and_eq_true, decide_eq_true_eq, beq_iff_eq]
  generalize n / d = q at *
  generalize n % d = r at *
  have m : (q + 1) * d = d * q + d := by rw [Nat.add_mul, Nat.one_mul, Nat.mul_comm]
  split
  · rw [m]
    exact ⟨by omega, by omega, fun t => by omega⟩
  · rw [Nat.mul_comm q d]
    exact ⟨by omega, by omega, fun t => by omega⟩

/-- For every quotient the normalizer forms, the scaled value lies in [2^52, 2^53), so its rounding is a 53-bit significand. -/
theorem significandScale_bounds : ∀ n, n < 1057 → 0 < n →
    Config.normScale * 2 ^ 52 ≤ n * 2 ^ significandScale n Config.normScale
    ∧ n * 2 ^ significandScale n Config.normScale < Config.normScale * 2 ^ 53
    ∧ significandScale n Config.normScale ≤ 62 := by
  decide +kernel

end Sys2Proof.Machine
end

