-- ==== Sys2Proof/Laws/State.lean ====
section
/-! SUPPORT. One lemma for each field and each update of the state, true by rfl, so that no proof unfolds a record update. -/

namespace Sys2Proof.Machine

@[simp] theorem State.setSync_sync (s : State) (v : BitVec 2) : (s.setSync v).sync = v := rfl
@[simp] theorem State.setSync_pbc (s : State) (v : BitVec 2) : (s.setSync v).pbc = s.pbc := rfl
@[simp] theorem State.setSync_pbuf (s : State) (v : BitVec 2) : (s.setSync v).pbuf = s.pbuf := rfl
@[simp] theorem State.setSync_chPop (s : State) (v : BitVec 2) : (s.setSync v).chPop = s.chPop := rfl
@[simp] theorem State.setSync_chPw (s : State) (v : BitVec 2) : (s.setSync v).chPw = s.chPw := rfl
@[simp] theorem State.setSync_cuc (s : State) (v : BitVec 2) : (s.setSync v).cuc = s.cuc := rfl
@[simp] theorem State.setSync_frameReady (s : State) (v : BitVec 2) : (s.setSync v).frameReady = s.frameReady := rfl
@[simp] theorem State.setSync_hold (s : State) (v : BitVec 2) : (s.setSync v).hold = s.hold := rfl
@[simp] theorem State.setSync_id0Policy (s : State) (v : BitVec 2) : (s.setSync v).id0Policy = s.id0Policy := rfl
@[simp] theorem State.setSync_lanes (s : State) (v : BitVec 2) : (s.setSync v).lanes = s.lanes := rfl
@[simp] theorem State.setSync_inReady (s : State) (v : BitVec 2) : (s.setSync v).inReady = s.inReady := rfl
@[simp] theorem State.setSync_regRdata (s : State) (v : BitVec 2) : (s.setSync v).regRdata = s.regRdata := rfl
@[simp] theorem State.setSync_inputs (s : State) (v : BitVec 2) : (s.setSync v).inputs = s.inputs := rfl

@[simp] theorem State.setPbc_sync (s : State) (v : BitVec 4) : (s.setPbc v).sync = s.sync := rfl
@[simp] theorem State.setPbc_pbc (s : State) (v : BitVec 4) : (s.setPbc v).pbc = v := rfl
@[simp] theorem State.setPbc_pbuf (s : State) (v : BitVec 4) : (s.setPbc v).pbuf = s.pbuf := rfl
@[simp] theorem State.setPbc_chPop (s : State) (v : BitVec 4) : (s.setPbc v).chPop = s.chPop := rfl
@[simp] theorem State.setPbc_chPw (s : State) (v : BitVec 4) : (s.setPbc v).chPw = s.chPw := rfl
@[simp] theorem State.setPbc_cuc (s : State) (v : BitVec 4) : (s.setPbc v).cuc = s.cuc := rfl
@[simp] theorem State.setPbc_frameReady (s : State) (v : BitVec 4) : (s.setPbc v).frameReady = s.frameReady := rfl
@[simp] theorem State.setPbc_hold (s : State) (v : BitVec 4) : (s.setPbc v).hold = s.hold := rfl
@[simp] theorem State.setPbc_id0Policy (s : State) (v : BitVec 4) : (s.setPbc v).id0Policy = s.id0Policy := rfl
@[simp] theorem State.setPbc_lanes (s : State) (v : BitVec 4) : (s.setPbc v).lanes = s.lanes := rfl
@[simp] theorem State.setPbc_inReady (s : State) (v : BitVec 4) : (s.setPbc v).inReady = s.inReady := rfl
@[simp] theorem State.setPbc_regRdata (s : State) (v : BitVec 4) : (s.setPbc v).regRdata = s.regRdata := rfl
@[simp] theorem State.setPbc_inputs (s : State) (v : BitVec 4) : (s.setPbc v).inputs = s.inputs := rfl

@[simp] theorem State.setPbuf_sync (s : State) (v : Payload) : (s.setPbuf v).sync = s.sync := rfl
@[simp] theorem State.setPbuf_pbc (s : State) (v : Payload) : (s.setPbuf v).pbc = s.pbc := rfl
@[simp] theorem State.setPbuf_pbuf (s : State) (v : Payload) : (s.setPbuf v).pbuf = v := rfl
@[simp] theorem State.setPbuf_chPop (s : State) (v : Payload) : (s.setPbuf v).chPop = s.chPop := rfl
@[simp] theorem State.setPbuf_chPw (s : State) (v : Payload) : (s.setPbuf v).chPw = s.chPw := rfl
@[simp] theorem State.setPbuf_cuc (s : State) (v : Payload) : (s.setPbuf v).cuc = s.cuc := rfl
@[simp] theorem State.setPbuf_frameReady (s : State) (v : Payload) : (s.setPbuf v).frameReady = s.frameReady := rfl
@[simp] theorem State.setPbuf_hold (s : State) (v : Payload) : (s.setPbuf v).hold = s.hold := rfl
@[simp] theorem State.setPbuf_id0Policy (s : State) (v : Payload) : (s.setPbuf v).id0Policy = s.id0Policy := rfl
@[simp] theorem State.setPbuf_lanes (s : State) (v : Payload) : (s.setPbuf v).lanes = s.lanes := rfl
@[simp] theorem State.setPbuf_inReady (s : State) (v : Payload) : (s.setPbuf v).inReady = s.inReady := rfl
@[simp] theorem State.setPbuf_regRdata (s : State) (v : Payload) : (s.setPbuf v).regRdata = s.regRdata := rfl
@[simp] theorem State.setPbuf_inputs (s : State) (v : Payload) : (s.setPbuf v).inputs = s.inputs := rfl

@[simp] theorem State.setChPop_sync (s : State) (v : Vector Bool 14) : (s.setChPop v).sync = s.sync := rfl
@[simp] theorem State.setChPop_pbc (s : State) (v : Vector Bool 14) : (s.setChPop v).pbc = s.pbc := rfl
@[simp] theorem State.setChPop_pbuf (s : State) (v : Vector Bool 14) : (s.setChPop v).pbuf = s.pbuf := rfl
@[simp] theorem State.setChPop_chPop (s : State) (v : Vector Bool 14) : (s.setChPop v).chPop = v := rfl
@[simp] theorem State.setChPop_chPw (s : State) (v : Vector Bool 14) : (s.setChPop v).chPw = s.chPw := rfl
@[simp] theorem State.setChPop_cuc (s : State) (v : Vector Bool 14) : (s.setChPop v).cuc = s.cuc := rfl
@[simp] theorem State.setChPop_frameReady (s : State) (v : Vector Bool 14) : (s.setChPop v).frameReady = s.frameReady := rfl
@[simp] theorem State.setChPop_hold (s : State) (v : Vector Bool 14) : (s.setChPop v).hold = s.hold := rfl
@[simp] theorem State.setChPop_id0Policy (s : State) (v : Vector Bool 14) : (s.setChPop v).id0Policy = s.id0Policy := rfl
@[simp] theorem State.setChPop_lanes (s : State) (v : Vector Bool 14) : (s.setChPop v).lanes = s.lanes := rfl
@[simp] theorem State.setChPop_inReady (s : State) (v : Vector Bool 14) : (s.setChPop v).inReady = s.inReady := rfl
@[simp] theorem State.setChPop_regRdata (s : State) (v : Vector Bool 14) : (s.setChPop v).regRdata = s.regRdata := rfl
@[simp] theorem State.setChPop_inputs (s : State) (v : Vector Bool 14) : (s.setChPop v).inputs = s.inputs := rfl

@[simp] theorem State.setChPw_sync (s : State) (v : Vector PulseWidth 14) : (s.setChPw v).sync = s.sync := rfl
@[simp] theorem State.setChPw_pbc (s : State) (v : Vector PulseWidth 14) : (s.setChPw v).pbc = s.pbc := rfl
@[simp] theorem State.setChPw_pbuf (s : State) (v : Vector PulseWidth 14) : (s.setChPw v).pbuf = s.pbuf := rfl
@[simp] theorem State.setChPw_chPop (s : State) (v : Vector PulseWidth 14) : (s.setChPw v).chPop = s.chPop := rfl
@[simp] theorem State.setChPw_chPw (s : State) (v : Vector PulseWidth 14) : (s.setChPw v).chPw = v := rfl
@[simp] theorem State.setChPw_cuc (s : State) (v : Vector PulseWidth 14) : (s.setChPw v).cuc = s.cuc := rfl
@[simp] theorem State.setChPw_frameReady (s : State) (v : Vector PulseWidth 14) : (s.setChPw v).frameReady = s.frameReady := rfl
@[simp] theorem State.setChPw_hold (s : State) (v : Vector PulseWidth 14) : (s.setChPw v).hold = s.hold := rfl
@[simp] theorem State.setChPw_id0Policy (s : State) (v : Vector PulseWidth 14) : (s.setChPw v).id0Policy = s.id0Policy := rfl
@[simp] theorem State.setChPw_lanes (s : State) (v : Vector PulseWidth 14) : (s.setChPw v).lanes = s.lanes := rfl
@[simp] theorem State.setChPw_inReady (s : State) (v : Vector PulseWidth 14) : (s.setChPw v).inReady = s.inReady := rfl
@[simp] theorem State.setChPw_regRdata (s : State) (v : Vector PulseWidth 14) : (s.setChPw v).regRdata = s.regRdata := rfl
@[simp] theorem State.setChPw_inputs (s : State) (v : Vector PulseWidth 14) : (s.setChPw v).inputs = s.inputs := rfl

@[simp] theorem State.setCuc_sync (s : State) (v : BitVec 5) : (s.setCuc v).sync = s.sync := rfl
@[simp] theorem State.setCuc_pbc (s : State) (v : BitVec 5) : (s.setCuc v).pbc = s.pbc := rfl
@[simp] theorem State.setCuc_pbuf (s : State) (v : BitVec 5) : (s.setCuc v).pbuf = s.pbuf := rfl
@[simp] theorem State.setCuc_chPop (s : State) (v : BitVec 5) : (s.setCuc v).chPop = s.chPop := rfl
@[simp] theorem State.setCuc_chPw (s : State) (v : BitVec 5) : (s.setCuc v).chPw = s.chPw := rfl
@[simp] theorem State.setCuc_cuc (s : State) (v : BitVec 5) : (s.setCuc v).cuc = v := rfl
@[simp] theorem State.setCuc_frameReady (s : State) (v : BitVec 5) : (s.setCuc v).frameReady = s.frameReady := rfl
@[simp] theorem State.setCuc_hold (s : State) (v : BitVec 5) : (s.setCuc v).hold = s.hold := rfl
@[simp] theorem State.setCuc_id0Policy (s : State) (v : BitVec 5) : (s.setCuc v).id0Policy = s.id0Policy := rfl
@[simp] theorem State.setCuc_lanes (s : State) (v : BitVec 5) : (s.setCuc v).lanes = s.lanes := rfl
@[simp] theorem State.setCuc_inReady (s : State) (v : BitVec 5) : (s.setCuc v).inReady = s.inReady := rfl
@[simp] theorem State.setCuc_regRdata (s : State) (v : BitVec 5) : (s.setCuc v).regRdata = s.regRdata := rfl
@[simp] theorem State.setCuc_inputs (s : State) (v : BitVec 5) : (s.setCuc v).inputs = s.inputs := rfl

@[simp] theorem State.setFrameReady_sync (s : State) (v : Bool) : (s.setFrameReady v).sync = s.sync := rfl
@[simp] theorem State.setFrameReady_pbc (s : State) (v : Bool) : (s.setFrameReady v).pbc = s.pbc := rfl
@[simp] theorem State.setFrameReady_pbuf (s : State) (v : Bool) : (s.setFrameReady v).pbuf = s.pbuf := rfl
@[simp] theorem State.setFrameReady_chPop (s : State) (v : Bool) : (s.setFrameReady v).chPop = s.chPop := rfl
@[simp] theorem State.setFrameReady_chPw (s : State) (v : Bool) : (s.setFrameReady v).chPw = s.chPw := rfl
@[simp] theorem State.setFrameReady_cuc (s : State) (v : Bool) : (s.setFrameReady v).cuc = s.cuc := rfl
@[simp] theorem State.setFrameReady_frameReady (s : State) (v : Bool) : (s.setFrameReady v).frameReady = v := rfl
@[simp] theorem State.setFrameReady_hold (s : State) (v : Bool) : (s.setFrameReady v).hold = s.hold := rfl
@[simp] theorem State.setFrameReady_id0Policy (s : State) (v : Bool) : (s.setFrameReady v).id0Policy = s.id0Policy := rfl
@[simp] theorem State.setFrameReady_lanes (s : State) (v : Bool) : (s.setFrameReady v).lanes = s.lanes := rfl
@[simp] theorem State.setFrameReady_inReady (s : State) (v : Bool) : (s.setFrameReady v).inReady = s.inReady := rfl
@[simp] theorem State.setFrameReady_regRdata (s : State) (v : Bool) : (s.setFrameReady v).regRdata = s.regRdata := rfl
@[simp] theorem State.setFrameReady_inputs (s : State) (v : Bool) : (s.setFrameReady v).inputs = s.inputs := rfl

@[simp] theorem State.setHold_sync (s : State) (v : Bool) : (s.setHold v).sync = s.sync := rfl
@[simp] theorem State.setHold_pbc (s : State) (v : Bool) : (s.setHold v).pbc = s.pbc := rfl
@[simp] theorem State.setHold_pbuf (s : State) (v : Bool) : (s.setHold v).pbuf = s.pbuf := rfl
@[simp] theorem State.setHold_chPop (s : State) (v : Bool) : (s.setHold v).chPop = s.chPop := rfl
@[simp] theorem State.setHold_chPw (s : State) (v : Bool) : (s.setHold v).chPw = s.chPw := rfl
@[simp] theorem State.setHold_cuc (s : State) (v : Bool) : (s.setHold v).cuc = s.cuc := rfl
@[simp] theorem State.setHold_frameReady (s : State) (v : Bool) : (s.setHold v).frameReady = s.frameReady := rfl
@[simp] theorem State.setHold_hold (s : State) (v : Bool) : (s.setHold v).hold = v := rfl
@[simp] theorem State.setHold_id0Policy (s : State) (v : Bool) : (s.setHold v).id0Policy = s.id0Policy := rfl
@[simp] theorem State.setHold_lanes (s : State) (v : Bool) : (s.setHold v).lanes = s.lanes := rfl
@[simp] theorem State.setHold_inReady (s : State) (v : Bool) : (s.setHold v).inReady = s.inReady := rfl
@[simp] theorem State.setHold_regRdata (s : State) (v : Bool) : (s.setHold v).regRdata = s.regRdata := rfl
@[simp] theorem State.setHold_inputs (s : State) (v : Bool) : (s.setHold v).inputs = s.inputs := rfl

@[simp] theorem State.setLanes_sync (s : State) (v : List Lane) : (s.setLanes v).sync = s.sync := rfl
@[simp] theorem State.setLanes_pbc (s : State) (v : List Lane) : (s.setLanes v).pbc = s.pbc := rfl
@[simp] theorem State.setLanes_pbuf (s : State) (v : List Lane) : (s.setLanes v).pbuf = s.pbuf := rfl
@[simp] theorem State.setLanes_chPop (s : State) (v : List Lane) : (s.setLanes v).chPop = s.chPop := rfl
@[simp] theorem State.setLanes_chPw (s : State) (v : List Lane) : (s.setLanes v).chPw = s.chPw := rfl
@[simp] theorem State.setLanes_cuc (s : State) (v : List Lane) : (s.setLanes v).cuc = s.cuc := rfl
@[simp] theorem State.setLanes_frameReady (s : State) (v : List Lane) : (s.setLanes v).frameReady = s.frameReady := rfl
@[simp] theorem State.setLanes_hold (s : State) (v : List Lane) : (s.setLanes v).hold = s.hold := rfl
@[simp] theorem State.setLanes_id0Policy (s : State) (v : List Lane) : (s.setLanes v).id0Policy = s.id0Policy := rfl
@[simp] theorem State.setLanes_lanes (s : State) (v : List Lane) : (s.setLanes v).lanes = v := rfl
@[simp] theorem State.setLanes_inReady (s : State) (v : List Lane) : (s.setLanes v).inReady = s.inReady := rfl
@[simp] theorem State.setLanes_regRdata (s : State) (v : List Lane) : (s.setLanes v).regRdata = s.regRdata := rfl
@[simp] theorem State.setLanes_inputs (s : State) (v : List Lane) : (s.setLanes v).inputs = s.inputs := rfl

@[simp] theorem State.setInReady_sync (s : State) (v : Bool) : (s.setInReady v).sync = s.sync := rfl
@[simp] theorem State.setInReady_pbc (s : State) (v : Bool) : (s.setInReady v).pbc = s.pbc := rfl
@[simp] theorem State.setInReady_pbuf (s : State) (v : Bool) : (s.setInReady v).pbuf = s.pbuf := rfl
@[simp] theorem State.setInReady_chPop (s : State) (v : Bool) : (s.setInReady v).chPop = s.chPop := rfl
@[simp] theorem State.setInReady_chPw (s : State) (v : Bool) : (s.setInReady v).chPw = s.chPw := rfl
@[simp] theorem State.setInReady_cuc (s : State) (v : Bool) : (s.setInReady v).cuc = s.cuc := rfl
@[simp] theorem State.setInReady_frameReady (s : State) (v : Bool) : (s.setInReady v).frameReady = s.frameReady := rfl
@[simp] theorem State.setInReady_hold (s : State) (v : Bool) : (s.setInReady v).hold = s.hold := rfl
@[simp] theorem State.setInReady_id0Policy (s : State) (v : Bool) : (s.setInReady v).id0Policy = s.id0Policy := rfl
@[simp] theorem State.setInReady_lanes (s : State) (v : Bool) : (s.setInReady v).lanes = s.lanes := rfl
@[simp] theorem State.setInReady_inReady (s : State) (v : Bool) : (s.setInReady v).inReady = v := rfl
@[simp] theorem State.setInReady_regRdata (s : State) (v : Bool) : (s.setInReady v).regRdata = s.regRdata := rfl
@[simp] theorem State.setInReady_inputs (s : State) (v : Bool) : (s.setInReady v).inputs = s.inputs := rfl

@[simp] theorem State.setRegRdata_sync (s : State) (v : RegWord) : (s.setRegRdata v).sync = s.sync := rfl
@[simp] theorem State.setRegRdata_pbc (s : State) (v : RegWord) : (s.setRegRdata v).pbc = s.pbc := rfl
@[simp] theorem State.setRegRdata_pbuf (s : State) (v : RegWord) : (s.setRegRdata v).pbuf = s.pbuf := rfl
@[simp] theorem State.setRegRdata_chPop (s : State) (v : RegWord) : (s.setRegRdata v).chPop = s.chPop := rfl
@[simp] theorem State.setRegRdata_chPw (s : State) (v : RegWord) : (s.setRegRdata v).chPw = s.chPw := rfl
@[simp] theorem State.setRegRdata_cuc (s : State) (v : RegWord) : (s.setRegRdata v).cuc = s.cuc := rfl
@[simp] theorem State.setRegRdata_frameReady (s : State) (v : RegWord) : (s.setRegRdata v).frameReady = s.frameReady := rfl
@[simp] theorem State.setRegRdata_hold (s : State) (v : RegWord) : (s.setRegRdata v).hold = s.hold := rfl
@[simp] theorem State.setRegRdata_id0Policy (s : State) (v : RegWord) : (s.setRegRdata v).id0Policy = s.id0Policy := rfl
@[simp] theorem State.setRegRdata_lanes (s : State) (v : RegWord) : (s.setRegRdata v).lanes = s.lanes := rfl
@[simp] theorem State.setRegRdata_inReady (s : State) (v : RegWord) : (s.setRegRdata v).inReady = s.inReady := rfl
@[simp] theorem State.setRegRdata_regRdata (s : State) (v : RegWord) : (s.setRegRdata v).regRdata = v := rfl
@[simp] theorem State.setRegRdata_inputs (s : State) (v : RegWord) : (s.setRegRdata v).inputs = s.inputs := rfl

@[simp] theorem State.setInputs_sync (s : State) (v : List Pins) : (s.setInputs v).sync = s.sync := rfl
@[simp] theorem State.setInputs_pbc (s : State) (v : List Pins) : (s.setInputs v).pbc = s.pbc := rfl
@[simp] theorem State.setInputs_pbuf (s : State) (v : List Pins) : (s.setInputs v).pbuf = s.pbuf := rfl
@[simp] theorem State.setInputs_chPop (s : State) (v : List Pins) : (s.setInputs v).chPop = s.chPop := rfl
@[simp] theorem State.setInputs_chPw (s : State) (v : List Pins) : (s.setInputs v).chPw = s.chPw := rfl
@[simp] theorem State.setInputs_cuc (s : State) (v : List Pins) : (s.setInputs v).cuc = s.cuc := rfl
@[simp] theorem State.setInputs_frameReady (s : State) (v : List Pins) : (s.setInputs v).frameReady = s.frameReady := rfl
@[simp] theorem State.setInputs_hold (s : State) (v : List Pins) : (s.setInputs v).hold = s.hold := rfl
@[simp] theorem State.setInputs_id0Policy (s : State) (v : List Pins) : (s.setInputs v).id0Policy = s.id0Policy := rfl
@[simp] theorem State.setInputs_lanes (s : State) (v : List Pins) : (s.setInputs v).lanes = s.lanes := rfl
@[simp] theorem State.setInputs_inReady (s : State) (v : List Pins) : (s.setInputs v).inReady = s.inReady := rfl
@[simp] theorem State.setInputs_regRdata (s : State) (v : List Pins) : (s.setInputs v).regRdata = s.regRdata := rfl
@[simp] theorem State.setInputs_inputs (s : State) (v : List Pins) : (s.setInputs v).inputs = v := rfl

@[simp] theorem State.writePayload_sync (s : State) (j : Nat) (b : Byte) : (s.writePayload j b).sync = s.sync := rfl
@[simp] theorem State.writePayload_pbc (s : State) (j : Nat) (b : Byte) : (s.writePayload j b).pbc = s.pbc := rfl
@[simp] theorem State.writePayload_chPop (s : State) (j : Nat) (b : Byte) : (s.writePayload j b).chPop = s.chPop := rfl
@[simp] theorem State.writePayload_chPw (s : State) (j : Nat) (b : Byte) : (s.writePayload j b).chPw = s.chPw := rfl
@[simp] theorem State.writePayload_cuc (s : State) (j : Nat) (b : Byte) : (s.writePayload j b).cuc = s.cuc := rfl
@[simp] theorem State.writePayload_frameReady (s : State) (j : Nat) (b : Byte) : (s.writePayload j b).frameReady = s.frameReady := rfl
@[simp] theorem State.writePayload_hold (s : State) (j : Nat) (b : Byte) : (s.writePayload j b).hold = s.hold := rfl
@[simp] theorem State.writePayload_id0Policy (s : State) (j : Nat) (b : Byte) : (s.writePayload j b).id0Policy = s.id0Policy := rfl
@[simp] theorem State.writePayload_lanes (s : State) (j : Nat) (b : Byte) : (s.writePayload j b).lanes = s.lanes := rfl
@[simp] theorem State.writePayload_inReady (s : State) (j : Nat) (b : Byte) : (s.writePayload j b).inReady = s.inReady := rfl
@[simp] theorem State.writePayload_regRdata (s : State) (j : Nat) (b : Byte) : (s.writePayload j b).regRdata = s.regRdata := rfl
@[simp] theorem State.writePayload_inputs (s : State) (j : Nat) (b : Byte) : (s.writePayload j b).inputs = s.inputs := rfl

@[simp] theorem State.clearPayload_sync (s : State) : (s.clearPayload).sync = s.sync := rfl
@[simp] theorem State.clearPayload_pbc (s : State) : (s.clearPayload).pbc = s.pbc := rfl
@[simp] theorem State.clearPayload_chPop (s : State) : (s.clearPayload).chPop = s.chPop := rfl
@[simp] theorem State.clearPayload_chPw (s : State) : (s.clearPayload).chPw = s.chPw := rfl
@[simp] theorem State.clearPayload_cuc (s : State) : (s.clearPayload).cuc = s.cuc := rfl
@[simp] theorem State.clearPayload_frameReady (s : State) : (s.clearPayload).frameReady = s.frameReady := rfl
@[simp] theorem State.clearPayload_hold (s : State) : (s.clearPayload).hold = s.hold := rfl
@[simp] theorem State.clearPayload_id0Policy (s : State) : (s.clearPayload).id0Policy = s.id0Policy := rfl
@[simp] theorem State.clearPayload_lanes (s : State) : (s.clearPayload).lanes = s.lanes := rfl
@[simp] theorem State.clearPayload_inReady (s : State) : (s.clearPayload).inReady = s.inReady := rfl
@[simp] theorem State.clearPayload_regRdata (s : State) : (s.clearPayload).regRdata = s.regRdata := rfl
@[simp] theorem State.clearPayload_inputs (s : State) : (s.clearPayload).inputs = s.inputs := rfl

@[simp] theorem State.emptyStore_sync (s : State) : (s.emptyStore).sync = s.sync := rfl
@[simp] theorem State.emptyStore_pbc (s : State) : (s.emptyStore).pbc = s.pbc := rfl
@[simp] theorem State.emptyStore_pbuf (s : State) : (s.emptyStore).pbuf = s.pbuf := rfl
@[simp] theorem State.emptyStore_cuc (s : State) : (s.emptyStore).cuc = s.cuc := rfl
@[simp] theorem State.emptyStore_frameReady (s : State) : (s.emptyStore).frameReady = s.frameReady := rfl
@[simp] theorem State.emptyStore_hold (s : State) : (s.emptyStore).hold = s.hold := rfl
@[simp] theorem State.emptyStore_id0Policy (s : State) : (s.emptyStore).id0Policy = s.id0Policy := rfl
@[simp] theorem State.emptyStore_lanes (s : State) : (s.emptyStore).lanes = s.lanes := rfl
@[simp] theorem State.emptyStore_inReady (s : State) : (s.emptyStore).inReady = s.inReady := rfl
@[simp] theorem State.emptyStore_regRdata (s : State) : (s.emptyStore).regRdata = s.regRdata := rfl
@[simp] theorem State.emptyStore_inputs (s : State) : (s.emptyStore).inputs = s.inputs := rfl

@[simp] theorem State.storeLane_sync (s : State) (l : Lane) : (s.storeLane l).sync = s.sync := rfl
@[simp] theorem State.storeLane_pbc (s : State) (l : Lane) : (s.storeLane l).pbc = s.pbc := rfl
@[simp] theorem State.storeLane_pbuf (s : State) (l : Lane) : (s.storeLane l).pbuf = s.pbuf := rfl
@[simp] theorem State.storeLane_cuc (s : State) (l : Lane) : (s.storeLane l).cuc = s.cuc := rfl
@[simp] theorem State.storeLane_frameReady (s : State) (l : Lane) : (s.storeLane l).frameReady = s.frameReady := rfl
@[simp] theorem State.storeLane_hold (s : State) (l : Lane) : (s.storeLane l).hold = s.hold := rfl
@[simp] theorem State.storeLane_id0Policy (s : State) (l : Lane) : (s.storeLane l).id0Policy = s.id0Policy := rfl
@[simp] theorem State.storeLane_lanes (s : State) (l : Lane) : (s.storeLane l).lanes = s.lanes := rfl
@[simp] theorem State.storeLane_inReady (s : State) (l : Lane) : (s.storeLane l).inReady = s.inReady := rfl
@[simp] theorem State.storeLane_regRdata (s : State) (l : Lane) : (s.storeLane l).regRdata = s.regRdata := rfl
@[simp] theorem State.storeLane_inputs (s : State) (l : Lane) : (s.storeLane l).inputs = s.inputs := rfl

@[simp] theorem State.pushLane_sync (s : State) (l : Lane) : (s.pushLane l).sync = s.sync := rfl
@[simp] theorem State.pushLane_pbc (s : State) (l : Lane) : (s.pushLane l).pbc = s.pbc := rfl
@[simp] theorem State.pushLane_pbuf (s : State) (l : Lane) : (s.pushLane l).pbuf = s.pbuf := rfl
@[simp] theorem State.pushLane_chPop (s : State) (l : Lane) : (s.pushLane l).chPop = s.chPop := rfl
@[simp] theorem State.pushLane_chPw (s : State) (l : Lane) : (s.pushLane l).chPw = s.chPw := rfl
@[simp] theorem State.pushLane_cuc (s : State) (l : Lane) : (s.pushLane l).cuc = s.cuc := rfl
@[simp] theorem State.pushLane_frameReady (s : State) (l : Lane) : (s.pushLane l).frameReady = s.frameReady := rfl
@[simp] theorem State.pushLane_hold (s : State) (l : Lane) : (s.pushLane l).hold = s.hold := rfl
@[simp] theorem State.pushLane_id0Policy (s : State) (l : Lane) : (s.pushLane l).id0Policy = s.id0Policy := rfl
@[simp] theorem State.pushLane_inReady (s : State) (l : Lane) : (s.pushLane l).inReady = s.inReady := rfl
@[simp] theorem State.pushLane_regRdata (s : State) (l : Lane) : (s.pushLane l).regRdata = s.regRdata := rfl
@[simp] theorem State.pushLane_inputs (s : State) (l : Lane) : (s.pushLane l).inputs = s.inputs := rfl

end Sys2Proof.Machine
end

