-- ==== Sys2Proof/Laws/Ops.lean ====
section
/-! SUPPORT. What each shared operation over the payload buffer, the store, the counter and the flags can do, said once. -/

namespace Sys2Proof.Machine

/-! ### The payload buffer -/

/-- Reading a byte after a write of one byte. -/
theorem payloadByte_writePayload (s : State) (j : Nat) (b : Byte) (i : Nat) :
    payloadByte (s.writePayload j b).pbuf i = if j = i ∧ i < 14 then b else payloadByte s.pbuf i := by
  simp only [State.writePayload, State.setPbuf_pbuf, payloadByte, Vector.getElem?_setIfInBounds]
  by_cases h : j = i
  · subst h
    by_cases h14 : j < 14 <;> simp [h14]
  · simp [h]

theorem payloadByte_clearPayload (s : State) (i : Nat) : payloadByte s.clearPayload.pbuf i = 0x00#8 := by
  simp only [State.clearPayload, State.setPbuf_pbuf, payloadByte, clearedPayload, Vector.getElem?_replicate]
  split <;> rfl

/-- Two payloads with the same 14 bytes are one. -/
theorem payload_ext {p q : Payload} (h : ∀ j, j < 14 → payloadByte p j = payloadByte q j) : p = q := by
  apply Vector.ext
  intro j hj
  have := h j hj
  simpa [payloadByte, hj] using this

theorem writePayload_last (s : State) (b : Byte) : (s.writePayload 13 b).pbuf = s.pbuf.set 13 b := by
  apply payload_ext
  intro j hj
  rw [payloadByte_writePayload]
  simp only [payloadByte, Vector.getElem?_set]
  by_cases h : 13 = j <;> simp [h, hj]

/-! ### The store -/

theorem populated_storeLane (s : State) (l : Lane) (c : Nat) (hc : c < 14) :
    (s.storeLane l).populated c = if l.chid.toNat = c then true else s.populated c := by
  simp only [State.storeLane, State.populated, State.setChPw_chPop, State.setChPop_chPop, Vector.getElem?_setIfInBounds]
  by_cases h : l.chid.toNat = c <;> simp [h, hc]

theorem slotPw_storeLane (s : State) (l : Lane) (c : Nat) (hc : c < 14) :
    (s.storeLane l).slotPw c = if l.chid.toNat = c then l.pw else s.slotPw c := by
  simp only [State.storeLane, State.slotPw, State.setChPw_chPw, Vector.getElem?_setIfInBounds]
  by_cases h : l.chid.toNat = c <;> simp [h, hc]

theorem populated_emptyStore (s : State) (c : Nat) : s.emptyStore.populated c = false := by
  simp only [State.emptyStore, State.populated, State.setChPw_chPop, State.setChPop_chPop, nonePopulated,
    Vector.getElem?_replicate]
  split <;> rfl

theorem slotPw_emptyStore (s : State) (c : Nat) : s.emptyStore.slotPw c = 0#11 := by
  simp only [State.emptyStore, State.slotPw, State.setChPw_chPw, allMissing, Vector.getElem?_replicate]
  split <;> rfl

/-- Storing lanes changes the two files of the store and nothing else. -/
theorem foldl_storeLane_frame (ls : List Lane) (s : State) :
    ∃ p w, ls.foldl State.storeLane s = { s with chPop := p, chPw := w } := by
  induction ls generalizing s with
  | nil => exact ⟨s.chPop, s.chPw, rfl⟩
  | cons l ls ih =>
    obtain ⟨p, w, h⟩ := ih (s.storeLane l)
    exact ⟨p, w, by rw [List.foldl_cons, h]; rfl⟩

/-- storeLanes as a record update: the two files of the store, and nothing else. -/
theorem storeLanes_eq (s : State) :
    s.storeLanes = { s with chPop := s.storeLanes.chPop, chPw := s.storeLanes.chPw } := by
  obtain ⟨p, w, h⟩ := foldl_storeLane_frame s.lanes s
  have h' : s.storeLanes = { s with chPop := p, chPw := w } := h
  rw [h']

@[simp] theorem State.storeLanes_sync (s : State) : s.storeLanes.sync = s.sync := by rw [storeLanes_eq]
@[simp] theorem State.storeLanes_pbc (s : State) : s.storeLanes.pbc = s.pbc := by rw [storeLanes_eq]
@[simp] theorem State.storeLanes_pbuf (s : State) : s.storeLanes.pbuf = s.pbuf := by rw [storeLanes_eq]
@[simp] theorem State.storeLanes_cuc (s : State) : s.storeLanes.cuc = s.cuc := by rw [storeLanes_eq]
@[simp] theorem State.storeLanes_frameReady (s : State) : s.storeLanes.frameReady = s.frameReady := by rw [storeLanes_eq]
@[simp] theorem State.storeLanes_hold (s : State) : s.storeLanes.hold = s.hold := by rw [storeLanes_eq]
@[simp] theorem State.storeLanes_id0Policy (s : State) : s.storeLanes.id0Policy = s.id0Policy := by rw [storeLanes_eq]
@[simp] theorem State.storeLanes_lanes (s : State) : s.storeLanes.lanes = s.lanes := by rw [storeLanes_eq]
@[simp] theorem State.storeLanes_inReady (s : State) : s.storeLanes.inReady = s.inReady := by rw [storeLanes_eq]
@[simp] theorem State.storeLanes_regRdata (s : State) : s.storeLanes.regRdata = s.regRdata := by rw [storeLanes_eq]
@[simp] theorem State.storeLanes_inputs (s : State) : s.storeLanes.inputs = s.inputs := by rw [storeLanes_eq]

/-- Lanes stored one after another: a slot no lane names keeps its value, and of the lanes that name a slot the last one stays. -/
theorem foldl_storeLane_slots (ls : List Lane) (s : State) : SlotsWritten s (ls.foldl State.storeLane s) ls false := by
  induction ls generalizing s with
  | nil =>
    intro c _
    exact ⟨fun k hk => absurd hk (by simp), fun _ => ⟨fun h => absurd h (by simp), fun _ => ⟨rfl, rfl⟩⟩⟩
  | cons l ls ih =>
    intro c hc
    obtain ⟨named, unnamed⟩ := ih (s.storeLane l) c hc
    refine ⟨fun k hk hid hlast => ?_, fun hno => ⟨fun h => absurd h (by simp), fun _ => ?_⟩⟩
    · cases k with
      | succ k =>
        refine named k (by simpa using hk) hid fun k' hk' hlt => ?_
        exact hlast (k' + 1) (by simpa using hk') (by omega)
      | zero =>
        have hrest : ∀ m ∈ ls, m.chid.toNat ≠ c := by
          intro m hm
          obtain ⟨i, hi, rfl⟩ := List.getElem_of_mem hm
          exact hlast (i + 1) (by simpa using hi) (by omega)
        obtain ⟨hp, hw⟩ := (unnamed hrest).2 rfl
        have hid : l.chid.toNat = c := hid
        rw [List.foldl_cons, hp, hw, populated_storeLane s l c hc, slotPw_storeLane s l c hc, if_pos hid, if_pos hid]
        exact ⟨rfl, rfl⟩
    · have hl : l.chid.toNat ≠ c := hno l (by simp)
      obtain ⟨hp, hw⟩ := (unnamed fun m hm => hno m (by simp [hm])).2 rfl
      rw [List.foldl_cons, hp, hw, populated_storeLane s l c hc, slotPw_storeLane s l c hc, if_neg hl, if_neg hl]
      exact ⟨rfl, rfl⟩

/-- storeLanes writes the lanes of the state and keeps the slots they do not name (41_decode.md R145, R147). -/
theorem storeLanes_slots (s : State) : SlotsWritten s s.storeLanes s.lanes false := foldl_storeLane_slots s.lanes s

/-- storeLanes after emptyStore writes the lanes and leaves every other slot empty (41_decode.md R144). -/
theorem storeLanes_emptyStore_slots (s : State) : SlotsWritten s s.emptyStore.storeLanes s.lanes true := by
  intro c hc
  obtain ⟨named, unnamed⟩ := storeLanes_slots s.emptyStore c hc
  refine ⟨named, fun hno => ⟨fun _ => ?_, fun h => absurd h (by simp)⟩⟩
  obtain ⟨hp, hw⟩ := (unnamed hno).2 rfl
  exact ⟨hp.trans (populated_emptyStore s c), hw.trans (slotPw_emptyStore s c)⟩

/-! ### The lanes of a decode -/

theorem foldl_decodeLane (ws : List PayloadWord) (s : State) :
    ws.foldl State.decodeLane s = s.setLanes (s.lanes ++ ws.map laneDecode) := by
  induction ws generalizing s with
  | nil => simp [State.setLanes]
  | cons w ws ih =>
    rw [List.foldl_cons, ih]
    simp [State.decodeLane, State.pushLane, State.setLanes]

/-- A decode is the commit of the payload's seven lanes (41_decode.md R140). -/
theorem decodePayload_eq (s : State) :
    s.decodePayload = (s.setLanes (payloadLanes s.pbuf)).commitHalf (payloadMid s.pbuf) := by
  unfold State.decodePayload
  rw [foldl_decodeLane]
  rfl

/-! ### The counter and the flags -/

theorem satAdd7_toNat (x : BitVec 5) : (satAdd7 x).toNat = min (x.toNat + 7) 31 := by
  revert x; decide

/-- The completion test: both flags set if the count is 14, nothing changed if it is not. -/
theorem completeAt14_cases (s : State) :
    (s.cuc = 14#5 ∧ s.completeAt14 = { s with frameReady := true, hold := true }) ∨ (s.cuc ≠ 14#5 ∧ s.completeAt14 = s) := by
  unfold State.completeAt14
  by_cases h : s.cuc = Config.completeCount
  · exact .inl ⟨h, by rw [if_pos h]; rfl⟩
  · exact .inr ⟨h, if_neg h⟩

/-- What a CONTROL write does: the two flags, each by its bit (43_host.md R215). -/
theorem control_eq (s : State) (v : RegWord) :
    (s.clearCommand v).releaseCommand v = { s with
      frameReady := if v.getLsbD 0 then false else s.frameReady
      hold := if v.getLsbD 1 then false else s.hold } := by
  unfold State.clearCommand State.releaseCommand
  generalize v.getLsbD 0 = clear
  generalize v.getLsbD 1 = release
  cases clear <;> cases release <;> rfl

/-! ### The commits -/

theorem discardHalf_eq (s : State) : s.discardHalf = { s with cuc := 0#5, lanes := [] } := rfl

/-- A first half: the store written, the count 7, the lanes gone, all else kept (41_decode.md R144). -/
theorem commitFirst_spec (s : State) :
    SlotsWritten s s.commitFirst s.lanes (decide (s.id0Policy = .replace))
    ∧ s.commitFirst = { s with chPop := s.commitFirst.chPop, chPw := s.commitFirst.chPw, cuc := 7#5, lanes := [] } := by
  unfold State.commitFirst
  by_cases h : s.id0Policy = .replace
  · refine ⟨?_, ?_⟩
    · simp only [if_pos h, decide_eq_true h]
      exact storeLanes_emptyStore_slots s
    · simp only [if_pos h]
      rw [storeLanes_eq s.emptyStore]
      rfl
  · refine ⟨?_, ?_⟩
    · simp only [if_neg h, decide_eq_false h]
      exact storeLanes_slots s
    · simp only [if_neg h]
      rw [storeLanes_eq s]
      rfl

/-- A second half: the store merged, the count 7 more, the flags set at 14, the lanes gone, all else kept (41_decode.md R145). -/
theorem commitSecond_spec (s : State) :
    SlotsWritten s s.commitSecond s.lanes false
    ∧ s.commitSecond = { s with
        chPop := s.commitSecond.chPop
        chPw := s.commitSecond.chPw
        cuc := satAdd7 s.cuc
        frameReady := s.frameReady || decide (satAdd7 s.cuc = 14#5)
        hold := s.hold || decide (satAdd7 s.cuc = 14#5)
        lanes := [] } := by
  have key : s.commitSecond = { s.storeLanes with
        cuc := satAdd7 s.cuc
        frameReady := s.frameReady || decide (satAdd7 s.cuc = 14#5)
        hold := s.hold || decide (satAdd7 s.cuc = 14#5)
        lanes := [] } := by
    show ((s.storeLanes.setCuc (satAdd7 s.storeLanes.cuc)).completeAt14).setLanes [] = _
    rcases completeAt14_cases (s.storeLanes.setCuc (satAdd7 s.storeLanes.cuc)) with ⟨h, e⟩ | ⟨h, e⟩
    · rw [e]
      simp only [State.setCuc_cuc, State.storeLanes_cuc] at h
      simp [h, State.setCuc, State.setLanes]
    · rw [e]
      simp only [State.setCuc_cuc, State.storeLanes_cuc] at h
      simp [h, State.setCuc, State.setLanes]
  rw [key]
  refine ⟨storeLanes_slots s, ?_⟩
  rw [storeLanes_eq s]

/-- The three ways a half-frame is committed (30_encoding.md R88). -/
theorem commitHalf_cases (s : State) (mid : Bool) :
    (allValid s.lanes = false ∧ s.commitHalf mid = s.discardHalf)
    ∨ (allValid s.lanes = true ∧ mid = true ∧ s.commitHalf mid = s.commitSecond)
    ∨ (allValid s.lanes = true ∧ mid = false ∧ s.commitHalf mid = s.commitFirst) := by
  unfold State.commitHalf
  cases h : allValid s.lanes <;> cases mid <;> simp

/-! ### The decode of a payload -/

theorem allValid_iff_halfKind (p : Payload) : allValid (payloadLanes p) = true ↔ halfKind p ≠ .discard := by
  have h : allValid (payloadLanes p) = (payloadLanes p).all (fun l => l.valid) := rfl
  unfold halfKind
  rw [h]
  cases (payloadLanes p).all (fun l => l.valid) <;> cases payloadMid p <;> simp

/-- A valid lane's fields (41_decode.md R141, R151). -/
theorem laneDecode_valid (w : PayloadWord) (h : (laneDecode w).valid = true) :
    (laneDecode w).chid.toNat < 14 ∧ 172 ≤ (laneDecode w).pw.toNat ∧ (laneDecode w).pw.toNat ≤ 1810
      ∧ (laneDecode w).pw.toNat % 2 = 0 := by
  simp only [laneDecode, wordValid, Bool.and_eq_true, decide_eq_true_iff] at h
  refine ⟨h.2, h.1.1, h.1.2, ?_⟩
  simp [laneDecode, wordPw]

/-- A decode: the half-frame's effect, no lane left, and nothing else changed (41_decode.md R140). -/
theorem decodePayload_spec (s : State) :
    HalfFrameEffect s s.decodePayload s.pbuf
    ∧ s.decodePayload = { s with
        chPop := s.decodePayload.chPop
        chPw := s.decodePayload.chPw
        cuc := s.decodePayload.cuc
        frameReady := s.decodePayload.frameReady
        hold := s.decodePayload.hold
        lanes := [] } := by
  rw [decodePayload_eq]
  have kind := allValid_iff_halfKind s.pbuf
  rcases commitHalf_cases (s.setLanes (payloadLanes s.pbuf)) (payloadMid s.pbuf) with ⟨h, e⟩ | ⟨h, hm, e⟩ | ⟨h, hm, e⟩
  · rw [State.setLanes_lanes] at h
    have hk : halfKind s.pbuf = .discard := by
      by_contra hc
      rw [kind.2 hc] at h
      exact absurd h (by decide)
    rw [e]
    refine ⟨?_, rfl⟩
    simp [HalfFrameEffect, hk, discardHalf_eq]
  · rw [State.setLanes_lanes] at h
    have hk : halfKind s.pbuf = .second := by
      have h' : (payloadLanes s.pbuf).all (fun l => l.valid) = true := h
      simp only [halfKind, h', hm, if_true]
    obtain ⟨slots, eq⟩ := commitSecond_spec (s.setLanes (payloadLanes s.pbuf))
    rw [State.setLanes_lanes] at slots
    rw [e]
    rw [eq] at slots ⊢
    refine ⟨?_, rfl⟩
    simp only [HalfFrameEffect, hk]
    exact ⟨slots, satAdd7_toNat _, rfl, rfl⟩
  · rw [State.setLanes_lanes] at h
    have hk : halfKind s.pbuf = .first := by
      have h' : (payloadLanes s.pbuf).all (fun l => l.valid) = true := h
      simp only [halfKind, h', hm, if_true]
      rfl
    obtain ⟨slots, eq⟩ := commitFirst_spec (s.setLanes (payloadLanes s.pbuf))
    rw [State.setLanes_lanes] at slots
    rw [e]
    rw [eq] at slots ⊢
    refine ⟨?_, rfl⟩
    simp only [HalfFrameEffect, hk]
    exact ⟨slots, trivial, rfl, rfl⟩

/-! ### SYNC's codes -/

@[simp] theorem syncIdle_ne_gotFirst : syncIdle ≠ syncGotFirst := by decide
@[simp] theorem syncIdle_ne_inPayload : syncIdle ≠ syncInPayload := by decide
@[simp] theorem syncIdle_ne_illegal : syncIdle ≠ syncIllegal := by decide
@[simp] theorem syncGotFirst_ne_idle : syncGotFirst ≠ syncIdle := by decide
@[simp] theorem syncGotFirst_ne_inPayload : syncGotFirst ≠ syncInPayload := by decide
@[simp] theorem syncGotFirst_ne_illegal : syncGotFirst ≠ syncIllegal := by decide
@[simp] theorem syncInPayload_ne_idle : syncInPayload ≠ syncIdle := by decide
@[simp] theorem syncInPayload_ne_gotFirst : syncInPayload ≠ syncGotFirst := by decide
@[simp] theorem syncInPayload_ne_illegal : syncInPayload ≠ syncIllegal := by decide

end Sys2Proof.Machine
end

