-- ==== Sys2Proof/Laws/PerInstr.lean ====
section
/-! SUPPORT. A statement for each operation: the key that encode writes is one that a row of its format fits, and that row builds the
operation from it. (Whether an earlier row takes the key is the decoder's matter, and no part of this statement.) -/

namespace Sys2Proof.Laws.OwnRowBuildsIt

/-- Some row of the rows fits the key and builds i from it. -/
def Built {n : Nat} (rows : List (Row n)) (k : BitVec n) (d : RegWord) (i : Instr) : Prop :=
  ∃ r ∈ rows, r.fits k = true ∧ r.build k d = i

/-- The key of a well-formed operation fits a row of its format that builds the operation. -/
def Statement (i : Instr) : Prop :=
  i.wf = true →
    match encode i with
    | .byte k => Built byteRows k 0#32 i
    | .word w => Built wordRows w 0#32 i
    | .half k => Built halfRows k 0#32 i
    | .reg k d => Built regRows k d i
    | .rst r => Built rstRows r 0#32 i

theorem built_of_get {n : Nat} {rows : List (Row n)} {k : BitVec n} {d : RegWord} {i : Instr} (j : Nat) (r : Row n)
    (hr : rows[j]? = some r) (hf : r.fits k = true) (hb : r.build k d = i) : Built rows k d i :=
  ⟨r, List.mem_of_getElem? hr, hf, hb⟩

theorem byteIdleSync1 (p : BitVec 4) : Statement (.byteIdleSync1 p) := fun _ =>
  built_of_get 0 _ rfl (by revert p; decide) (congrArg Instr.byteIdleSync1 (byteKey_pbc 0#2 p 0#8))

theorem byteSync2 (p : BitVec 4) : Statement (.byteSync2 p) := fun _ =>
  built_of_get 1 _ rfl (by revert p; decide) (congrArg Instr.byteSync2 (byteKey_pbc 1#2 p 0#8))

theorem bytePayloadLast (b : Byte) : Statement (.bytePayloadLast b) := fun _ =>
  built_of_get 2 _ rfl (by revert b; decide) (congrArg Instr.bytePayloadLast (byteKey_byte 2#2 13#4 b))

theorem overrunKey_eq (p : BitVec 1) (b : Byte) : 0b10111#5 ++ p ++ b = 0b10#2 ++ (0b111#3 ++ p) ++ b :=
  congrArg (fun x : BitVec 6 => x ++ b) (by revert p; decide)

theorem bytePayloadOverrun (p : BitVec 1) (b : Byte) : Statement (.bytePayloadOverrun p b) := fun _ =>
  built_of_get 3 _ rfl (by revert p b; decide) (by
    show Instr.bytePayloadOverrun ((0b10111#5 ++ p ++ b).extractLsb' 8 1) ((0b10111#5 ++ p ++ b).extractLsb' 0 8) = _
    have h := overrunKey_eq p b
    rw [show (0b10111#5 ++ p ++ b : BitVec 14) = 0b10#2 ++ (0b111#3 ++ p) ++ b from h, byteKey_pbcBit, byteKey_byte]
    have hp : ∀ p : BitVec 1, (0b111#3 ++ p).extractLsb' 0 1 = p := by decide
    rw [hp])

/-- A row that looks at SYNC only fits every key with that SYNC. -/
theorem syncRow_fits (y : BitVec 2) (p : BitVec 4) (b : Byte) :
    (y ++ p ++ b) &&& 0x3000#14 = y ++ 0#4 ++ 0x00#8 :=
  (byteKey_fits y 3#2 y p 0#4 0#4 b 0#8 0#8).2 ⟨by revert y; decide, by simp, by simp⟩

theorem byteIllegalState (p : BitVec 4) (b : Byte) : Statement (.byteIllegalState p b) := fun _ =>
  built_of_get 4 _ rfl (beq_iff_eq.2 (syncRow_fits 3#2 p b))
    (congrArg₂ Instr.byteIllegalState (byteKey_pbc 3#2 p b) (byteKey_byte 3#2 p b))

theorem byteIdleSkip (p : BitVec 4) (b : Byte) : Statement (.byteIdleSkip p b) := fun _ =>
  built_of_get 5 _ rfl (beq_iff_eq.2 (syncRow_fits 0#2 p b))
    (congrArg₂ Instr.byteIdleSkip (byteKey_pbc 0#2 p b) (byteKey_byte 0#2 p b))

theorem byteSyncFail (p : BitVec 4) (b : Byte) : Statement (.byteSyncFail p b) := fun _ =>
  built_of_get 6 _ rfl (beq_iff_eq.2 (syncRow_fits 1#2 p b))
    (congrArg₂ Instr.byteSyncFail (byteKey_pbc 1#2 p b) (byteKey_byte 1#2 p b))

theorem bytePayloadAppend (p : BitVec 4) (b : Byte) : Statement (.bytePayloadAppend p b) := fun _ =>
  built_of_get 7 _ rfl (beq_iff_eq.2 (syncRow_fits 2#2 p b))
    (congrArg₂ Instr.bytePayloadAppend (byteKey_pbc 2#2 p b) (byteKey_byte 2#2 p b))

theorem decodeWord (w : PayloadWord) : Statement (.decodeWord w) := fun _ =>
  built_of_get 0 _ rfl (beq_iff_eq.2 (BitVec.and_zero)) rfl

theorem hfCommit0 : Statement .hfCommit0 := fun _ => built_of_get 0 _ rfl rfl rfl

theorem hfCommit1 : Statement .hfCommit1 := fun _ => built_of_get 1 _ rfl rfl rfl

theorem hfDiscard (m : BitVec 1) : Statement (.hfDiscard m) := fun _ =>
  built_of_get 2 _ rfl (by revert m; decide) (congrArg Instr.hfDiscard (by revert m; decide))

theorem rdStatus : Statement .rdStatus := fun _ => built_of_get 0 _ rfl rfl rfl

theorem wrControl (v : RegWord) : Statement (.wrControl v) := fun _ => built_of_get 1 _ rfl rfl rfl

theorem rdReserved1E (a : BitVec 1) : Statement (.rdReserved1E a) := fun _ =>
  built_of_get 2 _ rfl (by revert a; decide) (congrArg Instr.rdReserved1E (by revert a; decide))

theorem rdReserved2E (a : BitVec 1) : Statement (.rdReserved2E a) := fun _ =>
  built_of_get 3 _ rfl (by revert a; decide) (congrArg Instr.rdReserved2E (by revert a; decide))

theorem rdReserved5C (a : BitVec 2) : Statement (.rdReserved5C a) := fun _ =>
  built_of_get 4 _ rfl (by revert a; decide) (congrArg Instr.rdReserved5C (by revert a; decide))

theorem rdChRaw (c : BitVec 4) : Statement (.rdChRaw c) := fun _ =>
  built_of_get 5 _ rfl (by revert c; decide) (congrArg Instr.rdChRaw (by revert c; decide))

theorem rdChOfs (c : BitVec 4) : Statement (.rdChOfs c) := fun _ =>
  built_of_get 6 _ rfl (by revert c; decide) (congrArg Instr.rdChOfs (by revert c; decide))

theorem rdChNormLo (c : BitVec 4) : Statement (.rdChNormLo c) := fun _ =>
  built_of_get 7 _ rfl (by revert c; decide) (congrArg Instr.rdChNormLo (by revert c; decide))

theorem rdChNormHi (c : BitVec 4) : Statement (.rdChNormHi c) := fun _ =>
  built_of_get 8 _ rfl (by revert c; decide) (congrArg Instr.rdChNormHi (by revert c; decide))

theorem rdReservedOther (a : RegAddr) : Statement (.rdReservedOther a) := fun _ =>
  built_of_get 9 _ rfl (by revert a; decide) (congrArg Instr.rdReservedOther (by revert a; decide))

theorem wrIgnored (a : RegAddr) (v : RegWord) : Statement (.wrIgnored a v) := fun _ => by
  obtain ⟨_, _, _, _, _, _, _, _, _, _, fits, field⟩ := writeRow_fits a
  exact built_of_get 10 _ rfl fits (congrArg (fun x => Instr.wrIgnored x v) field)

theorem reset : Statement .reset := fun _ => built_of_get 0 _ rfl rfl rfl

end Sys2Proof.Laws.OwnRowBuildsIt
end

