-- ==== Sys2Proof/Laws/Step.lean ====
section
/-! SUPPORT. What one step can do, said once: the state after a register operation, after a byte operation and after a step, as
functions, and that the step answers them. Every proof about step starts from `step_next`. -/

namespace Sys2Proof.Machine

/-- The state after the register operation of pins p, if any. -/
def regAfter (p : Pins) (s : State) : State :=
  if p.regWe then (if p.regAddr = 0x01#8 then (s.clearCommand p.regWdata).releaseCommand p.regWdata else s)
  else if p.regRe then s.setRegRdata (s.regRead p.regAddr)
  else s

/-- The state after the byte operation that SYNC, PBC and b select. -/
def byteAfter (b : Byte) (s : State) : State :=
  if s.sync = syncIdle then (if b = 0x00#8 then (s.setSync syncGotFirst).setPbc 0#4 else s)
  else if s.sync = syncGotFirst then
    (if b = 0x00#8 then ((s.setSync syncInPayload).clearPayload).setPbc 0#4 else s.setSync syncIdle)
  else if s.sync = syncInPayload then
    (if s.pbc = 13#4 then (((s.writePayload 13 b).setPbc 14#4).decodePayload).setSync syncIdle
     else if 14#4 ≤ s.pbc then s.setSync syncIdle
     else (s.writePayload s.pbc.toNat b).setPbc (s.pbc + 1#4))
  else s.setSync syncIdle

/-- The state after one step. -/
def stepAfter (s : State) : State :=
  let p := s.nextPins
  if p.rst then { State.reset with id0Policy := s.id0Policy, inputs := s.inputs.tail }
  else if p.inValid && !s.hold then byteAfter p.inData (regAfter p s.beginStep)
  else regAfter p s.beginStep

@[simp] theorem beginStep_eq (s : State) :
    s.beginStep = { s with inputs := s.inputs.tail, inReady := !s.hold && !s.nextPins.rst, regRdata := 0#32 } := rfl

@[simp] theorem andThen_next (s : State) (f : State → Result) : andThen (.next s) f = f s := rfl

/-- The byte operation of a key runs as byteAfter says. -/
theorem runKey_byte (b : Byte) (s : State) : runKey (.byte (s.byteKey b)) s = .next (byteAfter b s) := by
  have hy : ∀ y : BitVec 2, y = 0#2 ∨ y = 1#2 ∨ y = 2#2 ∨ y = 3#2 := by decide
  unfold runKey State.byteKey
  rw [decode_byte]
  simp only [byteOperation, byteAfter]
  rcases hy s.sync with h | h | h | h
  · by_cases hb : b = 0x00#8 <;>
      simp [h, hb, syncIdle, exec, execByteIdleSync1, execByteIdleSkip]
  · by_cases hb : b = 0x00#8 <;>
      simp [h, hb, syncIdle, syncGotFirst, exec, execByteSync2, execByteSyncFail]
  · by_cases h1 : s.pbc = 13#4
    · simp [h, h1, syncIdle, syncGotFirst, syncInPayload, exec, execBytePayloadLast]
    · by_cases h2 : 14#4 ≤ s.pbc <;>
        simp [h, h1, h2, syncIdle, syncGotFirst, syncInPayload, exec, execBytePayloadOverrun, execBytePayloadAppend]
  · simp [h, syncIdle, syncGotFirst, syncInPayload, exec, execByteIllegalState]

/-- The channel fields of a read key, as the map of 20_memory.md R58 counts channels. -/
theorem channelFields (a : RegAddr) :
    (0x10#8 ≤ a ∧ a ≤ 0x1F#8 → (a.extractLsb' 0 4).toNat = a.toNat - 0x10)
    ∧ (0x20#8 ≤ a ∧ a ≤ 0x2F#8 → (a.extractLsb' 0 4).toNat = a.toNat - 0x20)
    ∧ (0x40#8 ≤ a ∧ a ≤ 0x5F#8 ∧ a.extractLsb' 0 1 = 0#1 →
        (a.extractLsb' 1 4).toNat = (a.toNat - 0x40) / 2 ∧ a.toNat % 2 = 0)
    ∧ (0x40#8 ≤ a ∧ a ≤ 0x5F#8 ∧ a.extractLsb' 0 1 = 1#1 →
        (a.extractLsb' 1 4).toNat = (a.toNat - 0x41) / 2 ∧ a.toNat % 2 = 1)
    ∧ (a.extractLsb' 0 1 = 0#1 ∨ a.extractLsb' 0 1 = 1#1) := by
  revert a; decide

theorem regRead_status (s : State) (a : RegAddr) (h : a.toNat = 0) : s.regRead a = s.statusReg := by
  unfold State.regRead
  exact if_pos h

theorem regRead_raw (s : State) (a : RegAddr) (h : 0x10 ≤ a.toNat ∧ a.toNat ≤ 0x1D) :
    s.regRead a = s.chRawReg (a.toNat - 0x10) := by
  unfold State.regRead
  exact (if_neg (by omega)).trans (if_pos h)

theorem regRead_ofs (s : State) (a : RegAddr) (h : 0x20 ≤ a.toNat ∧ a.toNat ≤ 0x2D) :
    s.regRead a = s.chOfsReg (a.toNat - 0x20) := by
  unfold State.regRead
  exact (if_neg (by omega)).trans ((if_neg (by omega)).trans (if_pos h))

theorem regRead_normLo (s : State) (a : RegAddr) (h : 0x40 ≤ a.toNat ∧ a.toNat ≤ 0x5B) (he : a.toNat % 2 = 0) :
    s.regRead a = s.chNormLoReg ((a.toNat - 0x40) / 2) := by
  unfold State.regRead
  exact (if_neg (by omega)).trans ((if_neg (by omega)).trans ((if_neg (by omega)).trans ((if_pos h).trans (if_pos he))))

theorem regRead_normHi (s : State) (a : RegAddr) (h : 0x40 ≤ a.toNat ∧ a.toNat ≤ 0x5B) (ho : a.toNat % 2 = 1) :
    s.regRead a = s.chNormHiReg ((a.toNat - 0x41) / 2) := by
  unfold State.regRead
  exact (if_neg (by omega)).trans ((if_neg (by omega)).trans ((if_neg (by omega)).trans
    ((if_pos h).trans (if_neg (by omega)))))

theorem regRead_reserved (s : State) (a : RegAddr)
    (h : (1 ≤ a.toNat ∧ a.toNat ≤ 0x0F) ∨ (0x1E ≤ a.toNat ∧ a.toNat ≤ 0x1F) ∨ (0x2E ≤ a.toNat ∧ a.toNat ≤ 0x3F)
      ∨ 0x5C ≤ a.toNat) : s.regRead a = 0#32 := by
  unfold State.regRead
  exact (if_neg (by omega)).trans ((if_neg (by omega)).trans ((if_neg (by omega)).trans (if_neg (by omega))))

/-- A read operation shows what the address map says (42_store.md R184 to R187, 43_host.md R214, R217 against 20_memory.md R58). -/
theorem exec_readOperation (a : RegAddr) (s : State) :
    exec (readOperation a) s = .next (s.setRegRdata (s.regRead a)) := by
  obtain ⟨f1, f2, f3, f4, f5⟩ := channelFields a
  have hn : ∀ n : Nat, n < 256 → (a = BitVec.ofNat 8 n ↔ a.toNat = n) := by
    intro n hn
    rw [← BitVec.toNat_inj, BitVec.toNat_ofNat, Nat.mod_eq_of_lt hn]
  unfold readOperation
  simp only [BitVec.le_def, BitVec.toNat_ofNat, hn 0 (by omega)] at f1 f2 f3 f4 ⊢
  split
  · next c => rw [regRead_status s a c]; rfl
  split
  · next c => rw [regRead_reserved s a (by omega)]; rfl
  split
  · next c => rw [regRead_reserved s a (by omega)]; rfl
  split
  · next c => rw [regRead_reserved s a (by omega)]; rfl
  split
  · next c => rw [regRead_raw s a (by omega), ← f1 c]; rfl
  split
  · next c => rw [regRead_ofs s a (by omega), ← f2 c]; rfl
  split
  · next c => rw [regRead_normLo s a (by omega) (f3 c).2, ← (f3 c).1]; rfl
  split
  · next c => rw [regRead_normHi s a (by omega) (f4 c).2, ← (f4 c).1]; rfl
  · next c0 c1 c2 c3 c4 c5 c6 c7 =>
    have c : ¬(64 ≤ a.toNat ∧ a.toNat ≤ 95) := by
      intro h
      rcases f5 with e | e
      · exact c6 ⟨h.1, h.2, e⟩
      · exact c7 ⟨h.1, h.2, e⟩
    rw [regRead_reserved s a (by omega)]; rfl

theorem runRegAccess_next (p : Pins) (s : State) : runRegAccess p s = .next (regAfter p s) := by
  unfold runRegAccess regAccess regAfter
  by_cases hw : p.regWe
  · simp only [hw, if_true, runKey, regKey]
    rw [show BitVec.ofBool true = 1#1 from rfl, decode_write]
    by_cases ha : p.regAddr = 0x01#8 <;> simp [ha, exec, execWrControl, execWrIgnored]
  · rw [Bool.not_eq_true] at hw
    by_cases hr : p.regRe
    · have h : runKey (.reg (0#1 ++ p.regAddr) 0#32) s = .next (s.setRegRdata (s.regRead p.regAddr)) := by
        unfold runKey
        rw [decode_read]
        exact exec_readOperation p.regAddr s
      simpa [hw, hr, regKey] using h
    · simp [hw, hr]

theorem regAfter_inReady (p : Pins) (s : State) : (regAfter p s).inReady = s.inReady := by
  unfold regAfter
  rw [control_eq]
  repeat' split
  all_goals rfl

/-- One step (43_host.md R213). -/
theorem step_next (s : State) : step s = .next (stepAfter s) := by
  unfold step cycle stepAfter
  by_cases hr : s.nextPins.rst
  · simp only [hr, if_true]
    rfl
  · simp only [hr, runRegAccess_next, andThen_next, runByteStep, regAfter_inReady]
    simp only [beginStep_eq, hr]
    by_cases hv : s.nextPins.inValid <;> by_cases hh : s.hold <;> simp [hv, hh, runKey_byte]

end Sys2Proof.Machine
end

