-- ==== Sys2Proof/Tests/Slice0.lean ====
section
/-! SUPPORT. The model's own tests: ill-formed operations refused, each row's decoding from a key written out bit by bit, single
steps with the results that 95_test_vectors.md gives, and for each statement with hypotheses a state and operands that meet them
(the theorems named `test_hypotheses_…`). Expected values are the spec's, not the model's. -/

namespace Sys2Proof.Tests
-- One theorem after another: elaborating them all at once asks for more threads than a small machine gives.
set_option Elab.async false
open Sys2Proof Sys2Proof.Machine

/-! ## Well-formedness: one ill-formed term for each check (30_encoding.md R87, R89) -/

theorem test_wf_skip_refuses_zero : (Instr.byteIdleSkip 3#4 0x00#8).wf = false := by decide
theorem test_wf_fail_refuses_zero : (Instr.byteSyncFail 0#4 0x00#8).wf = false := by decide
theorem test_wf_append_refuses_13 : (Instr.bytePayloadAppend 13#4 0x81#8).wf = false := by decide
theorem test_wf_raw_refuses_14 : (Instr.rdChRaw 14#4).wf = false := by decide
theorem test_wf_ofs_refuses_14 : (Instr.rdChOfs 14#4).wf = false := by decide
theorem test_wf_normLo_refuses_14 : (Instr.rdChNormLo 14#4).wf = false := by decide
theorem test_wf_normHi_refuses_14 : (Instr.rdChNormHi 14#4).wf = false := by decide
theorem test_wf_reservedOther_refuses_taken :
    [0x00#8, 0x10#8, 0x1E#8, 0x2F#8, 0x40#8, 0x5F#8].all (fun a => !(Instr.rdReservedOther a).wf) = true := by decide
theorem test_wf_ignored_refuses_control : (Instr.wrIgnored 0x01#8 3#32).wf = false := by decide

/-! ## Decoding: every row, from its key written out by the encoding column of the opcode table -/

theorem test_decode_idleSync1 : decode (.byte 0b00_1110_00000000#14) = .ok (.byteIdleSync1 14#4) := by decide
theorem test_decode_sync2 : decode (.byte 0b01_0000_00000000#14) = .ok (.byteSync2 0#4) := by decide
theorem test_decode_last : decode (.byte 0b10_1101_11101111#14) = .ok (.bytePayloadLast 0xEF#8) := by decide
theorem test_decode_overrun :
    decode (.byte 0b10_1110_00010010#14) = .ok (.bytePayloadOverrun 0#1 0x12#8)
    ∧ decode (.byte 0b10_1111_00010010#14) = .ok (.bytePayloadOverrun 1#1 0x12#8) := by decide
theorem test_decode_illegal : decode (.byte 0b11_1101_00000000#14) = .ok (.byteIllegalState 13#4 0x00#8) := by decide
theorem test_decode_skip : decode (.byte 0b00_1110_00000101#14) = .ok (.byteIdleSkip 14#4 0x05#8) := by decide
theorem test_decode_fail : decode (.byte 0b01_0000_00000101#14) = .ok (.byteSyncFail 0#4 0x05#8) := by decide
theorem test_decode_append :
    decode (.byte 0b10_0000_10000001#14) = .ok (.bytePayloadAppend 0#4 0x81#8)
    ∧ decode (.byte 0b10_1100_00000000#14) = .ok (.bytePayloadAppend 12#4 0x00#8) := by decide
theorem test_decode_word : decode (.word 0b1_00111_0111101111#16) = .ok (.decodeWord 0x9DEF#16) := by decide
theorem test_decode_commit0 : decode (.half 0b01#2) = .ok .hfCommit0 := by decide
theorem test_decode_commit1 : decode (.half 0b11#2) = .ok .hfCommit1 := by decide
theorem test_decode_discard :
    decode (.half 0b00#2) = .ok (.hfDiscard 0#1) ∧ decode (.half 0b10#2) = .ok (.hfDiscard 1#1) := by decide
theorem test_decode_status : decode (.reg 0b0_0000_0000#9 0#32) = .ok .rdStatus := by decide
theorem test_decode_control : decode (.reg 0b1_0000_0001#9 3#32) = .ok (.wrControl 3#32) := by decide
theorem test_decode_reserved1E : decode (.reg 0b0_0001_1111#9 0#32) = .ok (.rdReserved1E 1#1) := by decide
theorem test_decode_reserved2E : decode (.reg 0b0_0010_1110#9 0#32) = .ok (.rdReserved2E 0#1) := by decide
theorem test_decode_reserved5C : decode (.reg 0b0_0101_1110#9 0#32) = .ok (.rdReserved5C 2#2) := by decide
theorem test_decode_chRaw : decode (.reg 0b0_0001_0011#9 0#32) = .ok (.rdChRaw 3#4) := by decide
theorem test_decode_chOfs : decode (.reg 0b0_0010_1101#9 0#32) = .ok (.rdChOfs 13#4) := by decide
theorem test_decode_chNormLo : decode (.reg 0b0_0101_1010#9 0#32) = .ok (.rdChNormLo 13#4) := by decide
theorem test_decode_chNormHi : decode (.reg 0b0_0100_0011#9 0#32) = .ok (.rdChNormHi 1#4) := by decide
theorem test_decode_reservedOther :
    decode (.reg 0b0_0000_0001#9 0#32) = .ok (.rdReservedOther 0x01#8)
    ∧ decode (.reg 0b0_0011_0000#9 0#32) = .ok (.rdReservedOther 0x30#8)
    ∧ decode (.reg 0b0_0110_0000#9 0#32) = .ok (.rdReservedOther 0x60#8) := by decide
theorem test_decode_ignored :
    decode (.reg 0b1_0001_0000#9 0xFFFF#32) = .ok (.wrIgnored 0x10#8 0xFFFF#32) := by decide
theorem test_decode_reset : decode (.rst 1#1) = .ok .reset := by decide
theorem test_decode_rst_low_is_no_operation : decode (.rst 0#1) = .error .noRow := by decide
theorem test_tableWord_formats :
    decodeTableWord 16 0x2D00 = some (.bytePayloadLast 0x00#8) ∧ decodeTableWord 16 0x101 = some (.wrControl 0#32)
    ∧ decodeTableWord 8 3 = some .hfCommit1 ∧ decodeTableWord 16 0x81EF = some (.decodeWord 0x81EF#16)
    ∧ decodeTableWord 1 1 = some .reset ∧ decodeTableWord 24 0 = none := by decide

/-! ## Single steps -/

/-- The state of an answer. -/
def after : Result → State
  | .next s => s
  | _ => State.reset

/-- One step with the pins p. -/
def drive (s : State) (p : Pins) : State := after (step (s.setInputs [p]))

/-- The synchronizer in a given position, everything else as after reset. -/
def placed (y : BitVec 2) (p : BitVec 4) : State := (State.reset.setSync y).setPbc p

/-- A payload from its seven words. -/
def payload (a b c d e f g : PayloadWord) : Payload :=
  let h (w : PayloadWord) : Byte := w.extractLsb' 8 8
  let l (w : PayloadWord) : Byte := w.extractLsb' 0 8
  ⟨#[h a, l a, h b, l b, h c, l c, h d, l d, h e, l e, h f, l f, h g, l g], rfl⟩

/-- Frame A of P3: channels 0 to 6 at 990. -/
def payloadA : Payload := payload 0x01EF#16 0x05EF#16 0x09EF#16 0x0DEF#16 0x11EF#16 0x15EF#16 0x19EF#16
/-- Frame B of P3: channels 7 to 13 at 992. -/
def payloadB : Payload := payload 0x9DF0#16 0x21F0#16 0x25F0#16 0x29F0#16 0x2DF0#16 0x31F0#16 0x35F0#16
/-- P5's first frame: channel 7 twice, then 8 to 12. -/
def payloadRepeat : Payload := payload 0x9DF4#16 0x1E58#16 0x2056#16 0x2457#16 0x2B88#16 0x2F89#16 0x31EF#16
/-- P2's fourth frame: word 3 is at 1812, so it is invalid. -/
def payloadBad : Payload := payload 0x9E58#16 0x2258#16 0x2658#16 0x2B8A#16 0x2E58#16 0x3258#16 0x3658#16

/-- The state that waits for the last byte of p. -/
def awaiting (p : Payload) (s : State) : State := ((s.setSync syncInPayload).setPbc 13#4).setPbuf (p.set 13 0x00#8)

/-- The last byte of p presented to that state. -/
def finish (p : Payload) (s : State) : State := drive (awaiting p s) (bytePins p[13])

/-- After V-S6. -/
def afterA : State := finish payloadA State.reset
/-- After frames A and B: the completion of P3. -/
def afterB : State := finish payloadB afterA

theorem test_V_S1 : (drive State.reset (bytePins 0x00#8)).statusReg = 0x00000004#32 := by decide
theorem test_V_S10_clears_pbc : (drive (placed syncIdle 14#4) (bytePins 0x00#8)).pbc = 0#4 := by decide
theorem test_V_S2 : (drive State.reset (bytePins 0x05#8)).own = State.reset.own := by decide
theorem test_V_S11_keeps_pbc : (drive (placed syncIdle 14#4) (bytePins 0x05#8)).statusReg = 0x000000E0#32 := by decide
theorem test_V_S3 : (drive (placed syncGotFirst 0#4) (bytePins 0x00#8)).statusReg = 0x00000008#32 := by decide
theorem test_V_S3_clears_pbuf : (drive (awaiting payloadA (placed syncGotFirst 0#4) |>.setSync syncGotFirst)
    (bytePins 0x00#8)).pbuf = Vector.replicate 14 0x00#8 := by decide
theorem test_V_S4 : (drive (placed syncGotFirst 0#4) (bytePins 0x05#8)).statusReg = 0x00000000#32 := by decide
theorem test_V_S5 : (drive (placed syncInPayload 0#4) (bytePins 0x81#8)).statusReg = 0x00000018#32
    ∧ (drive (placed syncInPayload 0#4) (bytePins 0x81#8)).pbuf[0] = 0x81#8 := by decide
theorem test_V_S12_append_at_12 : (drive (placed syncInPayload 12#4) (bytePins 0x19#8)).statusReg = 0x000000D8#32
    ∧ (drive (placed syncInPayload 12#4) (bytePins 0x19#8)).pbuf[12] = 0x19#8 := by decide
theorem test_V_S6 : afterA.statusReg = 0x007F07E0#32 ∧ afterA.slotPw 6 = 990#11 := by decide
theorem test_P3_completion : afterB.statusReg = 0x3FFF0EE3#32 ∧ afterB.slotPw 13 = 992#11 := by decide +kernel
theorem test_V_S7 : (drive (placed syncInPayload 14#4) (bytePins 0x12#8)).statusReg = 0x000000E0#32 := by decide
theorem test_V_S8 : (drive (placed syncIllegal 0#4) (bytePins 0x00#8)).statusReg = 0x00000000#32 := by decide

/-- V-W1, V-W3, V-W4, V-W6, V-W12 to V-W14: valid words. -/
theorem test_V_W_valid :
    laneDecode 0x01EF#16 = ⟨0#5, 990#11, true⟩ ∧ laneDecode 0x0056#16 = ⟨0#5, 172#11, true⟩
    ∧ laneDecode 0x0389#16 = ⟨0#5, 1810#11, true⟩ ∧ laneDecode 0x3456#16 = ⟨13#5, 172#11, true⟩
    ∧ laneDecode 0x81EF#16 = ⟨0#5, 990#11, true⟩ ∧ laneDecode 0x9DEF#16 = ⟨7#5, 990#11, true⟩
    ∧ laneDecode 0x3789#16 = ⟨13#5, 1810#11, true⟩ := by decide
/-- V-W2, V-W5, V-W7, V-W8, V-W11, V-W16: invalid words. -/
theorem test_V_W_invalid :
    laneDecode 0x0055#16 = ⟨0#5, 170#11, false⟩ ∧ laneDecode 0x038A#16 = ⟨0#5, 1812#11, false⟩
    ∧ laneDecode 0x3B89#16 = ⟨14#5, 1810#11, false⟩ ∧ laneDecode 0x3BEF#16 = ⟨14#5, 2014#11, false⟩
    ∧ laneDecode 0x7FFF#16 = ⟨31#5, 2046#11, false⟩ ∧ laneDecode 0xFC56#16 = ⟨31#5, 172#11, false⟩ := by decide
theorem test_decodeWord_appends_a_lane :
    (after (exec (.decodeWord 0x9DEF#16) State.reset)).lanes = [⟨7#5, 990#11, true⟩] := by decide

/-- V-H6 and V-H14: the count goes to 0 and the store stays. -/
theorem test_P2_discard :
    (finish payloadBad afterA).cuc = 0#5 ∧ (finish payloadBad afterA).popMask = 0x007F#14 := by decide
/-- V-H13 under REPLACE. -/
theorem test_V_H13_replace : (finish payloadA (finish payloadRepeat State.reset)).popMask = 0x007F#14 := by decide
/-- V-H13 under MERGE. -/
theorem test_V_H13_merge :
    (finish payloadA (finish payloadRepeat { State.reset with id0Policy := .merge })).popMask = 0x1FFF#14 := by decide
/-- P5: STATUS after the first frame; the later word for channel 7 is the one stored. -/
theorem test_P5_later_word_wins :
    (finish payloadRepeat State.reset).statusReg = 0x1F8007E0#32
    ∧ (finish payloadRepeat State.reset).slotPw 7 = 1200#11 := by decide
/-- V-H10: 14 gives 21 without a completion, and 28 gives 31. -/
theorem test_V_H10_overcount :
    (finish payloadB (State.reset.setCuc 14#5)).cuc = 21#5 ∧ (finish payloadB (State.reset.setCuc 14#5)).frameReady = false
    ∧ (finish payloadB (State.reset.setCuc 28#5)).cuc = 31#5 := by decide

theorem test_V_R1 : (drive State.reset (readPins 0x00#8)).regRdata = 0x00000000#32 := by decide
theorem test_V_T2 : (drive afterB { readPins 0x00#8 with inValid := true }).regRdata = 0x3FFF0EE3#32 := by decide +kernel
theorem test_R184_example : (drive afterA (readPins 0x13#8)).regRdata = 0x000103DE#32 := by decide
theorem test_V_R2_unpopulated :
    (drive State.reset (readPins 0x20#8)).regRdata = 0xFFFFFC21#32
    ∧ (drive State.reset (readPins 0x5A#8)).regRdata = 0xC35C35C3#32
    ∧ (drive State.reset (readPins 0x5B#8)).regRdata = 0xBFF35C35#32 := by decide
theorem test_P3_readout :
    (drive afterB (readPins 0x20#8)).regRdata = 0xFFFFFFFF#32 ∧ (drive afterB (readPins 0x2D#8)).regRdata = 0x00000001#32
    ∧ (drive afterB (readPins 0x40#8)).regRdata = 0x14014014#32
    ∧ (drive afterB (readPins 0x5B#8)).regRdata = 0x3F540140#32 := by decide
theorem test_V_R4_reserved :
    [0x01#8, 0x02#8, 0x0F#8, 0x1E#8, 0x1F#8, 0x2E#8, 0x3F#8, 0x5C#8, 0x80#8, 0xFF#8].all
      (fun a => (drive afterB (readPins a)).regRdata == 0#32) = true := by decide
theorem test_V_R5_ignored : (drive afterB (writePins 0x10#8 0xFFFF#32)).own = afterB.own := by decide
theorem test_V_R6_to_R9_control :
    (drive afterB (writePins 0x01#8 0xFFFFFFFC#32)).statusReg = 0x3FFF0EE3#32
    ∧ (drive afterB (writePins 0x01#8 1#32)).statusReg = 0x3FFF0EE2#32
    ∧ (drive afterB (writePins 0x01#8 2#32)).statusReg = 0x3FFF0EE1#32
    ∧ (drive afterB (writePins 0x01#8 3#32)).statusReg = 0x3FFF0EE0#32 := by decide +kernel

theorem test_V_T1_completion_wins_over_clear :
    (drive (awaiting payloadB afterA) { bytePins 0xF0#8 with regWe := true, regAddr := 0x01#8, regWdata := 1#32 }).statusReg
      = 0x3FFF0EE3#32 := by decide +kernel
theorem test_V_T3_release_accepts_nothing :
    (drive afterB { writePins 0x01#8 2#32 with inValid := true }).statusReg = 0x3FFF0EE1#32
    ∧ (drive afterB { writePins 0x01#8 2#32 with inValid := true }).inReady = false := by decide +kernel
theorem test_V_T4_read_sees_the_state_before :
    (drive (afterB.setHold false) { readPins 0x00#8 with inValid := true }).regRdata = 0x3FFF0EE1#32
    ∧ (drive (afterB.setHold false) { readPins 0x00#8 with inValid := true }).statusReg = 0x3FFF0E05#32 := by decide +kernel
theorem test_V_T5_write_wins_over_read :
    (drive (afterB.setHold false) { writePins 0x01#8 1#32 with regRe := true }).regRdata = 0#32
    ∧ (drive (afterB.setHold false) { writePins 0x01#8 1#32 with regRe := true }).statusReg = 0x3FFF0EE0#32 := by decide +kernel
theorem test_V_T6_reset :
    (drive afterB { writePins 0x01#8 3#32 with rst := true, inValid := true }).own = State.reset.own := by decide

/-- A placed table word runs in the next step: BYTE_PAYLOAD_APPEND, WR_CONTROL and HF_COMMIT1 from reset. -/
theorem test_withFetchWord :
    (after (step (State.reset.withFetchWord 16 0x2081))).pbuf[0] = 0x81#8
    ∧ (after (step (State.reset.withFetchWord 16 0x101))).own = State.reset.own
    ∧ (after (step (State.reset.withFetchWord 8 3))).popMask = 0x3F80#14 := by decide

/-! ## Hypotheses of the statements: states and operands that meet them -/

theorem test_hypotheses_wellFormedAtTheLimits :
    (Instr.bytePayloadAppend 12#4 0x81#8).wf = true ∧ (Instr.rdChNormHi 13#4).wf = true
    ∧ (Instr.byteSyncFail 0#4 0x01#8).wf = true ∧ (Instr.rdReservedOther 0x30#8).wf = true
    ∧ (Instr.wrIgnored 0x00#8 3#32).wf = true := by decide
theorem test_hypotheses_EncodeOfDecodeIsTheKey :
    decode (.byte 0x2C81#14) = .ok (.bytePayloadAppend 12#4 0x81#8)
    ∧ decode (.reg 0x05B#9 7#32) = .ok (.rdChNormHi 13#4) := by decide
theorem test_hypotheses_RowsOfEqualPriority :
    (byteRows[5]).priority = (byteRows[7]).priority ∧ (halfRows[0]).priority = (halfRows[2]).priority
    ∧ (regRows[9]).priority = (regRows[10]).priority := by decide

/-- Pins that meet each clause: reset; a write; a read; neither; a byte with HOLD 0; a byte with HOLD 1. -/
theorem test_hypotheses_StepRunsTheDecodedOperations :
    ((State.reset.setInputs [resetPins]).inputs = resetPins :: [] ∧ resetPins.rst = true)
    ∧ ((writePins 0x01#8 3#32).rst = false ∧ (writePins 0x01#8 3#32).regWe = true)
    ∧ ((readPins 0x00#8).rst = false ∧ (readPins 0x00#8).regWe = false ∧ (readPins 0x00#8).regRe = true)
    ∧ ((bytePins 0x00#8).rst = false ∧ (bytePins 0x00#8).regWe = false ∧ (bytePins 0x00#8).regRe = false)
    ∧ ((bytePins 0x00#8).inValid = true ∧ State.reset.hold = false)
    ∧ ((bytePins 0x00#8).inValid = true ∧ (State.reset.setHold true).hold = true) := by decide
theorem test_hypotheses_StepWithNoPinsLeftIsIdle : State.reset.inputs = [] := by decide
theorem test_hypotheses_PlacedOperation :
    ((Instr.bytePayloadLast 0xEF#8).wf = true ∧ encode (.bytePayloadLast 0xEF#8) = .byte 0x2DEF#14)
    ∧ ((Instr.rdChRaw 13#4).wf = true ∧ encode (.rdChRaw 13#4) = .reg 0x01D#9 0#32)
    ∧ (Instr.reset.wf = true ∧ encode .reset = .rst 1#1) := by decide

/-- A step from reset with one byte: what the statements that start from "step s = .next t" assume. -/
theorem test_hypotheses_aStepFromAReachableState :
    State.reset.Inv ∧ ∃ t, step (State.reset.setInputs [bytePins 0x00#8]) = .next t := ⟨by decide, _, rfl⟩
theorem test_hypotheses_ByteRefusedUnderHold :
    let s := (State.reset.setHold true).setInputs [bytePins 0x00#8]
    s.hold = true ∧ s.nextPins.rst = false ∧ s.nextPins.regWe = false ∧ s.nextPins.inValid = true := by decide
theorem test_hypotheses_ReleaseAcceptsNoByte :
    let s := (State.reset.setHold true).setInputs [{ writePins 0x01#8 2#32 with inValid := true }]
    s.hold = true ∧ s.nextPins.rst = false ∧ s.nextPins.regWe = true ∧ s.nextPins.regAddr = 0x01#8
    ∧ s.nextPins.regWdata = 2#32 ∧ s.nextPins.inValid = true := by decide
theorem test_hypotheses_CompletionWins :
    let s := (awaiting payloadB (State.reset.setCuc 7#5)).setInputs
      [{ bytePins 0xF0#8 with regWe := true, regAddr := 0x01#8, regWdata := 1#32 }]
    s.inputs = [{ bytePins 0xF0#8 with regWe := true, regAddr := 0x01#8, regWdata := 1#32 }]
    ∧ s.hold = false ∧ s.sync = syncInPayload ∧ s.pbc = 13#4 ∧ s.cuc = 7#5
    ∧ halfKind (s.pbuf.set 13 0xF0#8) = .second := by decide

theorem test_hypotheses_ByteIdleSync1 :
    (0x0000#14 &&& 0x30FF#14 = 0x0000#14 ∧ 0x0F00#14 &&& 0x30FF#14 = 0x0000#14) ∧ (placed syncIdle 14#4).sync = syncIdle := by
  decide
theorem test_hypotheses_ByteIdleSkip :
    (0x0F01#14 &&& 0x3000#14 = 0x0000#14 ∧ (0x0F01#14).extractLsb' 0 8 ≠ 0x00#8)
    ∧ ((placed syncIdle 14#4).sync = syncIdle ∧ 0xFF#8 ≠ 0x00#8) := by decide
theorem test_hypotheses_ByteSync2 :
    0x1F00#14 &&& 0x30FF#14 = 0x1000#14 ∧ (placed syncGotFirst 0#4).sync = syncGotFirst ∧ (placed syncGotFirst 0#4).Inv
    ∧ decode (.byte ((placed syncGotFirst 0#4).byteKey 0x00#8)) = .ok (.byteSync2 0#4) := by decide
theorem test_hypotheses_ByteSyncFail :
    (0x1F01#14 &&& 0x3000#14 = 0x1000#14 ∧ (0x1F01#14).extractLsb' 0 8 ≠ 0x00#8)
    ∧ ((placed syncGotFirst 0#4).sync = syncGotFirst ∧ 0x05#8 ≠ 0x00#8
      ∧ decode (.byte ((placed syncGotFirst 0#4).byteKey 0x05#8)) = .ok (.byteSyncFail 0#4 0x05#8)
      ∧ exec (.byteSyncFail 0#4 0x05#8) (placed syncGotFirst 0#4) = .next (placed syncIdle 0#4)
      ∧ decode (.byte ((placed syncIdle 0#4).byteKey 0x05#8)) = .ok (.byteIdleSkip 0#4 0x05#8)
      ∧ exec (.byteIdleSkip 0#4 0x05#8) (placed syncIdle 0#4) = .next (placed syncIdle 0#4)) := by
  refine ⟨by decide, by decide, by decide, by decide, rfl, by decide, rfl⟩
theorem test_hypotheses_BytePayloadAppend :
    (0x2000#14 &&& 0x3000#14 = 0x2000#14 ∧ ((0x2000#14).extractLsb' 8 4).toNat ≤ 12)
    ∧ (0x2CFF#14 &&& 0x3000#14 = 0x2000#14 ∧ ((0x2CFF#14).extractLsb' 8 4).toNat ≤ 12)
    ∧ ((placed syncInPayload 0#4).sync = syncInPayload ∧ (placed syncInPayload 0#4).pbc.toNat ≤ 12)
    ∧ ((placed syncInPayload 12#4).sync = syncInPayload ∧ (placed syncInPayload 12#4).pbc.toNat ≤ 12) := by decide
theorem test_hypotheses_BytePayloadLast :
    0x2DEF#14 &&& 0x3F00#14 = 0x2D00#14
    ∧ (placed syncInPayload 13#4).sync = syncInPayload ∧ (placed syncInPayload 13#4).pbc = 13#4 := by decide
theorem test_hypotheses_BytePayloadOverrun :
    (0x2E12#14 &&& 0x3E00#14 = 0x2E00#14 ∧ 0x2F12#14 &&& 0x3E00#14 = 0x2E00#14)
    ∧ ((placed syncInPayload 14#4).sync = syncInPayload ∧ 14 ≤ (placed syncInPayload 14#4).pbc.toNat)
    ∧ 14 ≤ (placed syncInPayload 15#4).pbc.toNat ∧ (placed syncInPayload 13#4).Inv := by decide
theorem test_hypotheses_ByteIllegalState :
    0x3FFF#14 &&& 0x3000#14 = 0x3000#14 ∧ (placed syncIllegal 0#4).sync = syncIllegal ∧ (placed syncIdle 14#4).Inv := by decide

theorem test_hypotheses_HalfFrameKinds :
    halfKind payloadA = .first ∧ halfKind payloadB = .second ∧ halfKind payloadBad = .discard := by decide
theorem test_hypotheses_HalfKeys :
    0b00#2 &&& 0b01#2 = 0b00#2 ∧ 0b10#2 &&& 0b01#2 = 0b00#2 ∧ 0b01#2 &&& 0b11#2 = 0b01#2 ∧ 0b11#2 &&& 0b11#2 = 0b11#2 := by
  decide
/-- Seven valid lanes, at both limits of CHID and PW; two of them of one channel. -/
theorem test_hypotheses_Commits :
    let s := State.reset.setLanes
      [⟨0#5, 172#11, true⟩, ⟨7#5, 1810#11, true⟩, ⟨7#5, 172#11, true⟩, ⟨8#5, 990#11, true⟩, ⟨9#5, 990#11, true⟩,
        ⟨10#5, 990#11, true⟩, ⟨13#5, 1810#11, true⟩]
    s.lanes.length = 7 ∧ (∀ l ∈ s.lanes, l.valid = true) ∧ (∀ l ∈ s.lanes, l.chid.toNat < 14) := by decide
theorem test_hypotheses_LaterLaneOfAChannelWins :
    let s := State.reset.setLanes
      [⟨0#5, 172#11, true⟩, ⟨7#5, 1810#11, true⟩, ⟨7#5, 172#11, true⟩, ⟨8#5, 990#11, true⟩, ⟨9#5, 990#11, true⟩,
        ⟨10#5, 990#11, true⟩, ⟨13#5, 1810#11, true⟩]
    ∃ (hk : 1 < s.lanes.length) (hk' : 2 < s.lanes.length), s.lanes.length = 7
      ∧ (∀ l ∈ s.lanes, l.valid = true ∧ l.chid.toNat < 14) ∧ s.lanes[1].chid = s.lanes[2].chid
      ∧ ∀ j (hj : j < s.lanes.length), 2 < j → s.lanes[j].chid ≠ s.lanes[2].chid := by decide
theorem test_hypotheses_OutOfRangeValues :
    13 < 14 ∧ ∃ t, exec (.bytePayloadLast 0xF0#8) (awaiting payloadB State.reset) = .next t := ⟨by decide, _, rfl⟩
theorem test_hypotheses_Frames :
    State.reset.sync = syncIdle ∧ State.reset.hold = false ∧ halfKind payloadA = .first ∧ halfKind payloadB = .second := by decide
theorem test_hypotheses_UnboundedCount :
    State.reset.cuc.toNat = min 0 31 ∧ (State.reset.setCuc 31#5).cuc.toNat = min 35 31
    ∧ (State.reset.setCuc 31#5).sync = syncIdle ∧ (State.reset.setCuc 31#5).hold = false := by decide

/-- One state for each corner value of normalization. -/
theorem test_hypotheses_NormCornerValues :
    State.reset.populated 13 = false
    ∧ [172#11, 174#11, 990#11, 992#11, 1000#11, 1200#11, 1500#11, 1808#11, 1810#11].all (fun w =>
      (State.reset.storeLane ⟨13#5, w, true⟩).populated 13 && (State.reset.storeLane ⟨13#5, w, true⟩).slotPw 13 == w) = true := by
  decide
theorem test_hypotheses_Offsets :
    ((State.reset.storeLane ⟨13#5, 1810#11, true⟩).Inv ∧ (State.reset.storeLane ⟨13#5, 1810#11, true⟩).populated 13 = true)
    ∧ ((State.reset.storeLane ⟨0#5, 172#11, true⟩).Inv ∧ (State.reset.storeLane ⟨0#5, 172#11, true⟩).populated 0 = true)
    ∧ (State.reset.Inv ∧ State.reset.populated 13 = false) :=
  ⟨⟨by decide, by decide⟩, ⟨by decide, by decide⟩, by decide, by decide⟩
theorem test_hypotheses_Channels : (13#4 ≤ 13#4 ∧ (13#4).toNat < 14) ∧ 0#4 ≤ 13#4 := by decide
theorem test_hypotheses_Addresses :
    [0x01#8, 0x0F#8, 0x1E#8, 0x1F#8, 0x2E#8, 0x3F#8, 0x5C#8, 0xFF#8].all (fun a => decide
      ((0x01 ≤ a.toNat ∧ a.toNat ≤ 0x0F) ∨ (0x1E ≤ a.toNat ∧ a.toNat ≤ 0x1F) ∨ (0x2E ≤ a.toNat ∧ a.toNat ≤ 0x3F)
        ∨ 0x5C ≤ a.toNat)) = true
    ∧ 0x00#8 ≠ 0x01#8 ∧ 0x02#8 ≠ 0x01#8 ∧ 0x10 ≤ (0x10#8).toNat ∧ 0x10 ≤ (0x5B#8).toNat := by decide
theorem test_hypotheses_ResetStep : (State.reset.setInputs [resetPins]).nextPins.rst = true := by decide

/-- Each of the flag rules' cases happens: a completion, a CLEAR, a RELEASE. -/
theorem test_hypotheses_FlagChanges :
    (let s := (awaiting payloadB (State.reset.setCuc 7#5)).setInputs [bytePins 0xF0#8]
     s.frameReady = false ∧ s.hold = false ∧ s.nextPins.commands 0 = false
       ∧ (after (step s)).frameReady = true ∧ (after (step s)).hold = true)
    ∧ (let s := (State.reset.completionEvent).setInputs [writePins 0x01#8 1#32]
       s.frameReady = true ∧ (after (step s)).frameReady = false)
    ∧ (let s := (State.reset.completionEvent).setInputs [writePins 0x01#8 2#32]
       s.hold = true ∧ s.nextPins.commands 0 = false ∧ (after (step s)).hold = false) := by decide +kernel
theorem test_hypotheses_StoreAndCountStay :
    let s := (placed syncInPayload 12#4).setInputs [bytePins 0x00#8]
    s.nextPins.rst = false ∧ ¬(s.accepts s.nextPins = true ∧ s.sync = syncInPayload ∧ s.pbc = 13#4)
    ∧ ∃ t, step s = .next t := ⟨by decide, by decide, _, rfl⟩
theorem test_hypotheses_AsksNothing :
    (State.reset.setInputs [readPins 0x00#8]).nextPins.asksNothing = true ∧ State.reset.nextPins.asksNothing = true := by decide
theorem test_hypotheses_HoldStalls :
    (State.reset.setHold true).hold = true
    ∧ ∀ p ∈ [bytePins 0x00#8, writePins 0x01#8 1#32, readPins 0x00#8], p.rst = false ∧ p.commands 1 = false := by decide
/-- A parser in the middle of a payload and the block that corresponds to it. -/
theorem test_hypotheses_ByteStepRefinesTheParser :
    let s := ((placed syncInPayload 1#4).setPbuf (clearedPayload.set 0 0x01#8)).setInputs [bytePins 0xEF#8]
    s.Corresponds ⟨.inPayload, 1, [1], fun _ => none, 0, false⟩ ∧ s.hold = false ∧ s.inputs = [bytePins 0xEF#8] := by
  refine ⟨⟨rfl, rfl, fun _ => ⟨by decide, by decide⟩, by decide, by decide, rfl⟩, rfl, rfl⟩
/-- Two states that differ in a byte at the count, and two that differ in a byte while Idle. -/
theorem test_hypotheses_StalePayloadBytes :
    SameButStaleBytes (placed syncInPayload 1#4) ((placed syncInPayload 1#4).setPbuf (clearedPayload.set 1 0xFF#8))
    ∧ SameButStaleBytes (placed syncIdle 14#4) ((placed syncIdle 14#4).setPbuf (clearedPayload.set 0 0xFF#8)) := by
  refine ⟨⟨rfl, fun _ => by decide⟩, ⟨rfl, fun h => absurd h (by decide)⟩⟩

end Sys2Proof.Tests
end

section
/-! ID0_POLICY is a parameter (00_scope.md R6): the register operation, the byte operation, the decode inside it and the step itself
each leave it as it was. -/

namespace Sys2Proof.Machine

@[simp] theorem State.decodePayload_id0Policy (s : State) : s.decodePayload.id0Policy = s.id0Policy := by
  obtain ⟨_, frame⟩ := decodePayload_spec s
  rw [frame]

@[simp] theorem regAfter_id0Policy (p : Pins) (s : State) : (regAfter p s).id0Policy = s.id0Policy := by
  unfold regAfter
  rw [control_eq]
  split_ifs <;> rfl

/-- Of the byte operations only BYTE_PAYLOAD_LAST does more than write SYNC, PBC and PBUF. -/
@[simp] theorem byteAfter_id0Policy (b : Byte) (s : State) : (byteAfter b s).id0Policy = s.id0Policy := by
  unfold byteAfter
  split_ifs
  all_goals simp only [State.setSync_id0Policy, State.setPbc_id0Policy, State.clearPayload_id0Policy,
    State.writePayload_id0Policy, State.decodePayload_id0Policy]

/-- A reset step puts the parameter back from the state before it; every other step never writes it. -/
@[simp] theorem stepAfter_id0Policy (s : State) : (stepAfter s).id0Policy = s.id0Policy := by
  unfold stepAfter
  dsimp only
  split_ifs with reset accepted
  · rfl
  · rw [byteAfter_id0Policy, regAfter_id0Policy, beginStep_eq]
  · rw [regAfter_id0Policy, beginStep_eq]

/-- Settles O60: a step answers `stepAfter`, and that keeps the parameter. -/
theorem policyIsNeverWritten : Obligations.PolicyIsNeverWritten := by
  intro s t hstep
  obtain rfl : stepAfter s = t := by simpa [step_next] using hstep
  exact stepAfter_id0Policy s

end Sys2Proof.Machine
end

section
/-! What the register operation, the byte operation and the step do, case by case: which elements each leaves unchanged, the byte
operation of each SYNC, and the three kinds of step. The statements of 10_state.md R34 and R35 below go through these. -/

namespace Sys2Proof.Machine

/-! ### The register operation -/

/-- A register operation writes the two flags and the step's reg_rdata, and no other field. -/
theorem regAfter_eq (p : Pins) (s : State) :
    regAfter p s = { s with
      frameReady := (regAfter p s).frameReady
      hold := (regAfter p s).hold
      regRdata := (regAfter p s).regRdata } := by
  unfold regAfter
  rw [control_eq]
  split_ifs <;> rfl

@[simp] theorem regAfter_sync (p : Pins) (s : State) : (regAfter p s).sync = s.sync := by rw [regAfter_eq]
@[simp] theorem regAfter_pbc (p : Pins) (s : State) : (regAfter p s).pbc = s.pbc := by rw [regAfter_eq]
@[simp] theorem regAfter_pbuf (p : Pins) (s : State) : (regAfter p s).pbuf = s.pbuf := by rw [regAfter_eq]

/-- In a step without reset FRAME_READY falls by CLEAR, and HOLD by RELEASE (43_host.md R215). -/
theorem regAfter_flags (p : Pins) (s : State) (noReset : p.rst = false) :
    (regAfter p s).frameReady = (s.frameReady && !p.commands 0)
    ∧ (regAfter p s).hold = (s.hold && !p.commands 1) := by
  by_cases control : p.regWe = true ∧ p.regAddr = 0x01#8
  · obtain ⟨write, address⟩ := control
    have command (n : Nat) : p.commands n = p.regWdata.getLsbD n := by simp [Pins.commands, noReset, write, address]
    have run : regAfter p s = (s.clearCommand p.regWdata).releaseCommand p.regWdata := by
      simp only [regAfter, if_pos write, if_pos address]
    rw [run, control_eq, command, command]
    cases p.regWdata.getLsbD 0 <;> cases p.regWdata.getLsbD 1 <;> simp
  · have command (n : Nat) : p.commands n = false := by
      simp only [Pins.commands, Bool.and_eq_false_iff, beq_eq_false_iff_ne]
      rcases not_and_or.mp control with noWrite | elsewhere
      · exact .inl (.inl (.inr (by simpa using noWrite)))
      · exact .inl (.inr elsewhere)
    have kept : (regAfter p s).frameReady = s.frameReady ∧ (regAfter p s).hold = s.hold := by
      unfold regAfter
      split_ifs with write address
      · exact absurd ⟨write, address⟩ control
      all_goals exact ⟨rfl, rfl⟩
    simpa [command] using kept

/-! ### The byte operation -/

/-- SYNC's four codes. -/
theorem sync_cases (y : BitVec 2) : y = syncIdle ∨ y = syncGotFirst ∨ y = syncInPayload ∨ y = syncIllegal := by
  revert y; decide

theorem byteAfter_idle (b : Byte) (s : State) (h : s.sync = syncIdle) :
    byteAfter b s = if b = 0x00#8 then (s.setSync syncGotFirst).setPbc 0#4 else s := by
  simp only [byteAfter, if_pos h]

theorem byteAfter_gotFirst (b : Byte) (s : State) (h : s.sync = syncGotFirst) :
    byteAfter b s =
      if b = 0x00#8 then ((s.setSync syncInPayload).clearPayload).setPbc 0#4 else s.setSync syncIdle := by
  simp [byteAfter, h]

theorem byteAfter_append (b : Byte) (s : State) (h : s.sync = syncInPayload) (hp : s.pbc.toNat ≤ 12) :
    byteAfter b s = (s.writePayload s.pbc.toNat b).setPbc (s.pbc + 1#4) := by
  have notLast : ¬ s.pbc = 13#4 := by bv_omega
  have notOver : ¬ 14#4 ≤ s.pbc := by bv_omega
  simp only [byteAfter, h, syncInPayload_ne_idle, syncInPayload_ne_gotFirst, if_false, if_true, if_neg notLast,
    if_neg notOver]

theorem byteAfter_last (b : Byte) (s : State) (h : s.sync = syncInPayload) (hp : s.pbc = 13#4) :
    byteAfter b s = (((s.writePayload 13 b).setPbc 14#4).decodePayload).setSync syncIdle := by
  simp [byteAfter, h, hp]

theorem byteAfter_overrun (b : Byte) (s : State) (h : s.sync = syncInPayload) (hp : 14 ≤ s.pbc.toNat) :
    byteAfter b s = s.setSync syncIdle := by
  have notLast : ¬ s.pbc = 13#4 := by bv_omega
  have overrun : 14#4 ≤ s.pbc := by bv_omega
  simp only [byteAfter, h, syncInPayload_ne_idle, syncInPayload_ne_gotFirst, if_false, if_true, if_neg notLast,
    if_pos overrun]

theorem byteAfter_illegal (b : Byte) (s : State) (h : s.sync = syncIllegal) : byteAfter b s = s.setSync syncIdle := by
  simp [byteAfter, h, syncIllegal, syncIdle, syncGotFirst, syncInPayload]

/-- What PBC says of a byte InPayload: it is appended, it is the payload's last, or it overruns. -/
theorem pbc_cases (x : BitVec 4) : x.toNat ≤ 12 ∨ x = 13#4 ∨ 14 ≤ x.toNat := by
  revert x; decide

/-- A byte that is not a payload's last writes SYNC, PBC and PBUF, and no other field. -/
theorem byteAfter_eq_of_not_last (b : Byte) (s : State) (h : ¬(s.sync = syncInPayload ∧ s.pbc = 13#4)) :
    byteAfter b s = { s with
      sync := (byteAfter b s).sync, pbc := (byteAfter b s).pbc, pbuf := (byteAfter b s).pbuf } := by
  rcases sync_cases s.sync with idle | gotFirst | inPayload | illegal
  · rw [byteAfter_idle b s idle]
    split <;> rfl
  · rw [byteAfter_gotFirst b s gotFirst]
    split <;> rfl
  · rcases pbc_cases s.pbc with room | last | overrun
    · rw [byteAfter_append b s inPayload room]
      rfl
    · exact absurd ⟨inPayload, last⟩ h
    · rw [byteAfter_overrun b s inPayload overrun]
      rfl
  · rw [byteAfter_illegal b s illegal]
    rfl

/-- What a half-frame does to the store, the counter and the flags does not ask for SYNC, PBC and PBUF. -/
theorem HalfFrameEffect.of_synchronizer_writes {s t : State} {p q : Payload} {n : BitVec 4} {y : BitVec 2}
    (h : HalfFrameEffect ((s.setPbuf q).setPbc n) t p) : HalfFrameEffect s (t.setSync y) p := by
  unfold HalfFrameEffect at h ⊢
  cases kind : halfKind p <;> rw [kind] at h <;> exact h

/-- A payload's last byte decodes the payload that it completes, leaves the block Idle with PBC = 14 and no lane, and keeps the
rest (40_sync.md R116). -/
theorem byteAfter_last_spec (b : Byte) (s : State) (h : s.sync = syncInPayload) (hp : s.pbc = 13#4) :
    HalfFrameEffect s (byteAfter b s) (s.pbuf.set 13 b)
    ∧ byteAfter b s = { s with
        sync := syncIdle
        pbc := 14#4
        pbuf := s.pbuf.set 13 b
        chPop := (byteAfter b s).chPop
        chPw := (byteAfter b s).chPw
        cuc := (byteAfter b s).cuc
        frameReady := (byteAfter b s).frameReady
        hold := (byteAfter b s).hold
        lanes := [] } := by
  rw [byteAfter_last b s h hp]
  obtain ⟨effect, frame⟩ := decodePayload_spec ((s.writePayload 13 b).setPbc 14#4)
  have buffer : ((s.writePayload 13 b).setPbc 14#4).pbuf = s.pbuf.set 13 b := writePayload_last s b
  rw [buffer] at effect
  refine ⟨effect.of_synchronizer_writes, ?_⟩
  rw [frame, ← writePayload_last s b]
  rfl

/-- A byte either completes a cycle, ending with the count at 14 and both flags set, or leaves both flags (41_decode.md R148). -/
theorem byteAfter_flags (b : Byte) (s : State) :
    (s.sync = syncInPayload ∧ s.pbc = 13#4 ∧ halfKind (s.pbuf.set 13 b) = .second ∧ (byteAfter b s).cuc = 14#5
      ∧ (byteAfter b s).frameReady = true ∧ (byteAfter b s).hold = true)
    ∨ ((byteAfter b s).frameReady = s.frameReady ∧ (byteAfter b s).hold = s.hold) := by
  by_cases last : s.sync = syncInPayload ∧ s.pbc = 13#4
  · obtain ⟨inPayload, at13⟩ := last
    obtain ⟨effect, -⟩ := byteAfter_last_spec b s inPayload at13
    cases kind : halfKind (s.pbuf.set 13 b) with
    | discard =>
      simp only [HalfFrameEffect, kind] at effect
      obtain ⟨-, -, -, ready, hold⟩ := effect
      exact .inr ⟨ready, hold⟩
    | first =>
      simp only [HalfFrameEffect, kind] at effect
      obtain ⟨-, -, ready, hold⟩ := effect
      exact .inr ⟨ready, hold⟩
    | second =>
      simp only [HalfFrameEffect, kind] at effect
      obtain ⟨-, -, ready, hold⟩ := effect
      by_cases complete : (byteAfter b s).cuc = 14#5
      · exact .inl ⟨inPayload, at13, rfl, complete, by simp [ready, complete], by simp [hold, complete]⟩
      · exact .inr ⟨by simp [ready, complete], by simp [hold, complete]⟩
  · rw [byteAfter_eq_of_not_last b s last]
    exact .inr ⟨rfl, rfl⟩

/-! ### The step -/

theorem stepAfter_of_reset (s : State) (h : s.nextPins.rst = true) :
    stepAfter s = { State.reset with id0Policy := s.id0Policy, inputs := s.inputs.tail } := by
  simp only [stepAfter, h, if_true]

theorem stepAfter_of_accepts (s : State) (noReset : s.nextPins.rst = false) (accepted : s.accepts s.nextPins = true) :
    stepAfter s = byteAfter s.nextPins.inData (regAfter s.nextPins s.beginStep) := by
  have byte : (s.nextPins.inValid && !s.hold) = true := by simpa [State.accepts, acceptsByte, noReset] using accepted
  simp only [stepAfter, noReset, byte]
  rfl

theorem stepAfter_of_no_byte (s : State) (noReset : s.nextPins.rst = false) (refused : s.accepts s.nextPins = false) :
    stepAfter s = regAfter s.nextPins s.beginStep := by
  have byte : (s.nextPins.inValid && !s.hold) = false := by simpa [State.accepts, acceptsByte, noReset] using refused
  simp only [stepAfter, noReset, byte]
  rfl

/-- The three kinds of step: reset; the register operation and a byte; the register operation alone (43_host.md R213). -/
theorem step_kinds (s : State) :
    s.nextPins.rst = true ∨ (s.nextPins.rst = false ∧ s.accepts s.nextPins = true)
    ∨ (s.nextPins.rst = false ∧ s.accepts s.nextPins = false) := by
  cases s.nextPins.rst <;> cases s.accepts s.nextPins <;> simp

theorem stepAfter_eq_of_step {s t : State} (h : step s = .next t) : stepAfter s = t := by
  rw [step_next] at h
  exact Host.Outcome.next.inj h

/-- A completion event happens in the step: the payload's last byte is accepted, it ends a valid second half-frame, the new count
is 14 and both flags end 1 (41_decode.md R148). -/
def CompletionStep (s t : State) : Prop :=
  s.accepts s.nextPins = true ∧ s.sync = syncInPayload ∧ s.pbc = 13#4
    ∧ halfKind (s.pbuf.set 13 s.nextPins.inData) = .second ∧ t.cuc = 14#5 ∧ t.frameReady = true ∧ t.hold = true

/-- Everything that can happen to the flags in a step: a reset clears both, a completion sets both, and otherwise each stays unless
its command is written (10_state.md R31). -/
theorem stepAfter_flags (s : State) :
    (s.nextPins.rst = true ∧ (stepAfter s).frameReady = false ∧ (stepAfter s).hold = false)
    ∨ CompletionStep s (stepAfter s)
    ∨ ((stepAfter s).frameReady = (s.frameReady && !s.nextPins.commands 0)
      ∧ (stepAfter s).hold = (s.hold && !s.nextPins.commands 1)) := by
  rcases step_kinds s with reset | ⟨noReset, accepted⟩ | ⟨noReset, refused⟩
  · rw [stepAfter_of_reset s reset]
    exact .inl ⟨reset, rfl, rfl⟩
  · rw [stepAfter_of_accepts s noReset accepted]
    rcases byteAfter_flags s.nextPins.inData (regAfter s.nextPins s.beginStep) with
      ⟨inPayload, at13, kind, count, ready, hold⟩ | ⟨ready, hold⟩
    · rw [regAfter_sync] at inPayload
      rw [regAfter_pbc] at at13
      rw [regAfter_pbuf] at kind
      exact .inr (.inl ⟨accepted, inPayload, at13, kind, count, ready, hold⟩)
    · rw [ready, hold]
      exact .inr (.inr (regAfter_flags s.nextPins s.beginStep noReset))
  · rw [stepAfter_of_no_byte s noReset refused]
    exact .inr (.inr (regAfter_flags s.nextPins s.beginStep noReset))

end Sys2Proof.Machine
end

section
/-! The flags and reset (10_state.md R27, R28, R31, R35(e), R36). -/

namespace Sys2Proof.Machine

/-- Settles O50: of the three cases of `stepAfter_flags` only the third can end with HOLD = 1 and FRAME_READY = 0, and there HOLD was
1 before and FRAME_READY 0 before or cleared. -/
theorem holdImpliesFrameReadyUnlessCleared : Obligations.HoldImpliesFrameReadyUnlessCleared := by
  intro s t hstep
  obtain rfl : stepAfter s = t := stepAfter_eq_of_step hstep
  rcases stepAfter_flags s with ⟨-, -, hold⟩ | ⟨-, -, -, -, -, ready, -⟩ | ⟨ready, hold⟩
  · simp [hold]
  · simp [ready]
  · rw [ready, hold]
    refine ⟨fun rule noClear held => ?_, fun wasLow isHigh => ?_⟩
    · obtain ⟨wasHeld, -⟩ := Bool.and_eq_true_iff.mp held
      rw [rule wasHeld, noClear]
      rfl
    · simp [wasLow] at isHigh

/-- Settles O51: FRAME_READY rises in the second case of `stepAfter_flags` only and falls in the first and the third only. -/
theorem frameReadyChangesOnlyByCompletionClearOrReset : Obligations.FrameReadyChangesOnlyByCompletionClearOrReset := by
  intro s t hstep
  obtain rfl : stepAfter s = t := stepAfter_eq_of_step hstep
  rcases stepAfter_flags s with ⟨reset, ready, -⟩ | ⟨accepted, inPayload, at13, kind, count, ready, hold⟩ | ⟨ready, -⟩
  · exact ⟨fun _ isHigh => by simp [ready] at isHigh, fun _ _ => .inl reset⟩
  · exact ⟨fun _ _ => ⟨accepted, inPayload, at13, count, hold, kind⟩, fun _ isLow => by simp [ready] at isLow⟩
  · refine ⟨fun wasLow isHigh => ?_, fun wasHigh isLow => .inr ?_⟩
    · simp [ready, wasLow] at isHigh
    · simpa [ready, wasHigh] using isLow

/-- Settles O52: HOLD rises in the second case of `stepAfter_flags` only and falls in the first and the third only. -/
theorem holdChangesOnlyByCompletionReleaseOrReset : Obligations.HoldChangesOnlyByCompletionReleaseOrReset := by
  intro s t hstep
  obtain rfl : stepAfter s = t := stepAfter_eq_of_step hstep
  rcases stepAfter_flags s with ⟨reset, -, hold⟩ | ⟨accepted, inPayload, at13, kind, count, ready, hold⟩ | ⟨-, hold⟩
  · exact ⟨fun _ isHigh => by simp [hold] at isHigh, fun _ _ => .inl reset⟩
  · exact ⟨fun _ _ => ⟨accepted, inPayload, at13, count, ready, kind⟩, fun _ isLow => by simp [hold] at isLow⟩
  · refine ⟨fun wasLow isHigh => ?_, fun wasHigh isLow => .inr ?_⟩
    · simp [hold, wasLow] at isHigh
    · simpa [hold, wasHigh] using isLow

/-- Settles O47. -/
theorem resetKeepsTheParameterAndTheComingPins : Obligations.ResetKeepsTheParameterAndTheComingPins := by
  intro s reset
  refine ⟨stepAfter s, step_next s, ?_⟩
  rw [stepAfter_of_reset s reset]
  exact ⟨rfl, rfl, rfl⟩

end Sys2Proof.Machine
end

section
/-! R35(a) to (d): the invariant of the states reachable from reset, kept by every step. -/

namespace Sys2Proof.Machine

/-! ### The store after a half-frame -/

/-- Of the lanes that name a slot one is the last, if any lane names it. -/
theorem exists_last_lane (ls : List Lane) (c : Nat) :
    (∀ l ∈ ls, l.chid.toNat ≠ c)
    ∨ ∃ (k : Nat) (hk : k < ls.length), ls[k].chid.toNat = c
      ∧ ∀ (k' : Nat) (hk' : k' < ls.length), k < k' → ls[k'].chid.toNat ≠ c := by
  induction ls with
  | nil => exact .inl (by simp)
  | cons l ls ih =>
    rcases ih with none | ⟨k, hk, named, last⟩
    · by_cases here : l.chid.toNat = c
      · refine .inr ⟨0, by simp, here, fun k' hk' later => ?_⟩
        obtain ⟨j, rfl⟩ : ∃ j, k' = j + 1 := ⟨k' - 1, by omega⟩
        exact none _ (List.getElem_mem _)
      · exact .inl (by simpa using ⟨here, none⟩)
    · refine .inr ⟨k + 1, by simpa using hk, named, fun k' hk' later => ?_⟩
      obtain ⟨j, rfl⟩ : ∃ j, k' = j + 1 := ⟨k' - 1, by omega⟩
      exact last j (by simpa using hk') (by omega)

/-- The valid lanes of a half-frame that commits (41_decode.md R141, R151). -/
theorem payloadLanes_valid {p : Payload} (h : halfKind p ≠ .discard) :
    ∀ l ∈ payloadLanes p, l.chid.toNat < 14 ∧ 172 ≤ l.pw.toNat ∧ l.pw.toNat ≤ 1810 ∧ l.pw.toNat % 2 = 0 := by
  intro l hl
  have valid : l.valid = true := List.all_eq_true.mp ((allValid_iff_halfKind p).mpr h) l hl
  obtain ⟨w, -, rfl⟩ := List.mem_map.mp hl
  exact laneDecode_valid w valid

/-- Every slot holds what R35(c) allows. -/
def State.StoreLegal (s : State) : Prop := ∀ c, c < 14 → slotLegal (s.populated c) (s.slotPw c)

/-- Lanes within the limits written over a legal store leave it legal, with the other slots emptied or kept. -/
theorem SlotsWritten.storeLegal {s t : State} {ls : List Lane} {emptied : Bool} (h : SlotsWritten s t ls emptied)
    (valid : ∀ l ∈ ls, l.chid.toNat < 14 ∧ 172 ≤ l.pw.toNat ∧ l.pw.toNat ≤ 1810 ∧ l.pw.toNat % 2 = 0)
    (legal : s.StoreLegal) : t.StoreLegal := by
  intro c hc
  obtain ⟨written, others⟩ := h c hc
  rcases exists_last_lane ls c with none | ⟨k, hk, named, last⟩
  · obtain ⟨empty, kept⟩ := others none
    cases emptied with
    | true =>
      obtain ⟨pop, pw⟩ := empty rfl
      exact .inr ⟨pop, pw⟩
    | false =>
      obtain ⟨pop, pw⟩ := kept rfl
      rw [pop, pw]
      exact legal c hc
  · obtain ⟨pop, pw⟩ := written k hk named last
    obtain ⟨-, low, high, even⟩ := valid _ (List.getElem_mem hk)
    rw [pop, pw]
    exact .inl ⟨rfl, low, high, even⟩

/-- A half-frame keeps the store and the count as R35(c) and (d) have them. -/
theorem HalfFrameEffect.storeLegal_cucReachable {s t : State} {p : Payload} (h : HalfFrameEffect s t p)
    (legal : s.StoreLegal) (count : cucReachable s.cuc.toNat) : t.StoreLegal ∧ cucReachable t.cuc.toNat := by
  cases kind : halfKind p with
  | discard =>
    simp only [HalfFrameEffect, kind] at h
    obtain ⟨pop, pw, zero, -, -⟩ := h
    refine ⟨?_, .inl (by rw [zero]; rfl)⟩
    simpa only [State.StoreLegal, State.populated, State.slotPw, pop, pw] using legal
  | first =>
    simp only [HalfFrameEffect, kind] at h
    obtain ⟨slots, seven, -, -⟩ := h
    exact ⟨slots.storeLegal (payloadLanes_valid (by simp [kind])) legal, .inr (.inl (by rw [seven]; rfl))⟩
  | second =>
    simp only [HalfFrameEffect, kind] at h
    obtain ⟨slots, more, -, -⟩ := h
    refine ⟨slots.storeLegal (payloadLanes_valid (by simp [kind])) legal, ?_⟩
    unfold cucReachable at count ⊢
    omega

/-! ### The position of the synchronizer -/

/-- What R35(a) and (b), R113 and R114 say of SYNC and PBC. -/
def State.SyncLegal (s : State) : Prop :=
  s.sync ≠ syncIllegal ∧ s.pbc.toNat ≤ 14 ∧ (s.sync = syncInPayload → s.pbc.toNat ≤ 13)
    ∧ (s.sync = syncGotFirst → s.pbc = 0#4)

/-- R35's states by their three parts: the synchronizer, the store with the count, and no decode under way. -/
theorem State.inv_iff (s : State) :
    s.Inv ↔ s.SyncLegal ∧ (s.StoreLegal ∧ cucReachable s.cuc.toNat) ∧ s.lanes = [] := by
  unfold State.Inv State.SyncLegal State.StoreLegal
  tauto

theorem State.SyncLegal.of_idle {s : State} (idle : s.sync = syncIdle) (count : s.pbc.toNat ≤ 14) : s.SyncLegal := by
  refine ⟨?_, count, ?_, ?_⟩ <;> simp [idle]

/-- Every byte operation leaves SYNC and PBC as R35(a) and (b) have them. -/
theorem byteAfter_syncLegal (b : Byte) {s : State} (h : s.SyncLegal) : (byteAfter b s).SyncLegal := by
  obtain ⟨legal, count, -, -⟩ := h
  rcases sync_cases s.sync with idle | gotFirst | inPayload | illegal
  · rw [byteAfter_idle b s idle]
    split_ifs
    · exact ⟨by simp, by simp, by simp, by simp⟩
    · exact .of_idle idle count
  · rw [byteAfter_gotFirst b s gotFirst]
    split_ifs
    · exact ⟨by simp, by simp, by simp, by simp⟩
    · exact .of_idle rfl count
  · rcases pbc_cases s.pbc with room | last | overrun
    · rw [byteAfter_append b s inPayload room]
      have next : (s.pbc + 1#4).toNat ≤ 13 := by bv_omega
      refine ⟨by simp [inPayload], ?_, fun _ => next, by simp [inPayload]⟩
      exact Nat.le_succ_of_le next
    · obtain ⟨-, frame⟩ := byteAfter_last_spec b s inPayload last
      rw [frame]
      exact .of_idle rfl (Nat.le_refl 14)
    · rw [byteAfter_overrun b s inPayload overrun]
      exact .of_idle rfl count
  · exact absurd illegal legal

/-! ### The step -/

/-- A byte operation keeps the invariant: a payload's last byte by the half-frame's effect, any other by leaving the store, the
count and the lanes alone. -/
theorem byteAfter_inv (b : Byte) {s : State} (h : s.Inv) : (byteAfter b s).Inv := by
  rw [State.inv_iff] at h ⊢
  obtain ⟨position, ⟨legal, count⟩, noLanes⟩ := h
  refine ⟨byteAfter_syncLegal b position, ?_⟩
  by_cases last : s.sync = syncInPayload ∧ s.pbc = 13#4
  · obtain ⟨inPayload, at13⟩ := last
    obtain ⟨effect, frame⟩ := byteAfter_last_spec b s inPayload at13
    exact ⟨effect.storeLegal_cucReachable legal count, by rw [frame]⟩
  · rw [byteAfter_eq_of_not_last b s last]
    exact ⟨⟨legal, count⟩, noLanes⟩

/-- The flags and the outputs are no part of the invariant, and a register operation writes nothing else. -/
theorem regAfter_inv (p : Pins) {s : State} (h : s.Inv) : (regAfter p s).Inv := by
  rw [regAfter_eq]
  exact h

/-- Settles O48. -/
theorem reachableStateRulesHoldAtReset : Obligations.ReachableStateRulesHoldAtReset := by
  show State.reset.Inv
  decide

/-- The invariant holds after reset whatever the parameter and the coming pins are, which it does not mention. -/
theorem resetStep_inv (policy : Id0Policy) (ps : List Pins) :
    State.Inv { State.reset with id0Policy := policy, inputs := ps } := reachableStateRulesHoldAtReset

/-- Settles O49: each of the three kinds of step keeps the invariant. -/
theorem everyStepKeepsTheReachableStateRules : Obligations.EveryStepKeepsTheReachableStateRules := by
  intro s t inv hstep
  obtain rfl : stepAfter s = t := stepAfter_eq_of_step hstep
  have begun : s.beginStep.Inv := inv
  rcases step_kinds s with reset | ⟨noReset, accepted⟩ | ⟨noReset, refused⟩
  · rw [stepAfter_of_reset s reset]
    exact resetStep_inv s.id0Policy s.inputs.tail
  · rw [stepAfter_of_accepts s noReset accepted]
    exact byteAfter_inv _ (regAfter_inv _ begun)
  · rw [stepAfter_of_no_byte s noReset refused]
    exact regAfter_inv _ begun

end Sys2Proof.Machine
end

section
/-! The bytes of PBUF that no rule reads are unobservable (10_state.md R23, 93_implementation_defined.md U8): two blocks that differ
in such bytes only go on differing in such bytes only, whatever the environment drives. -/

namespace Sys2Proof.Machine

/-- The bytes of q that a rule reads in state s are those of PBUF. -/
def State.AgreesBelowCount (s : State) (q : Payload) : Prop :=
  s.sync = syncInPayload → ∀ j, j < s.pbc.toNat → payloadByte q j = payloadByte s.pbuf j

/-- Two states that differ in unread bytes are a state and the same state with another payload buffer. -/
theorem sameButStaleBytes_iff (s t : State) :
    SameButStaleBytes s t ↔ ∃ q, t = s.setPbuf q ∧ s.AgreesBelowCount q := by
  constructor
  · rintro ⟨same, agree⟩
    refine ⟨t.pbuf, ?_, agree⟩
    rw [← same]
    rfl
  · rintro ⟨q, rfl, agree⟩
    exact ⟨rfl, agree⟩

theorem SameButStaleBytes.refl (s : State) : SameButStaleBytes s s := ⟨rfl, fun _ _ _ => rfl⟩

/-- Outside InPayload every byte of PBUF is unread. -/
theorem sameButStaleBytes_setPbuf (s : State) (q : Payload) (h : s.sync ≠ syncInPayload) :
    SameButStaleBytes s (s.setPbuf q) := ⟨rfl, fun inPayload => absurd inPayload h⟩

/-- No register shows a byte of PBUF. -/
theorem regRead_setPbuf (s : State) (q : Payload) (a : RegAddr) : (s.setPbuf q).regRead a = s.regRead a := rfl

theorem regAfter_setPbuf (p : Pins) (s : State) (q : Payload) :
    regAfter p (s.setPbuf q) = (regAfter p s).setPbuf q := by
  unfold regAfter
  rw [control_eq, control_eq, regRead_setPbuf]
  split_ifs <;> rfl

/-- Appending the same byte at the count makes one more byte agree. -/
theorem append_sameButStaleBytes {s : State} {q : Payload} (b : Byte) (agree : s.AgreesBelowCount q)
    (inPayload : s.sync = syncInPayload) (room : s.pbc.toNat ≤ 12) :
    SameButStaleBytes ((s.writePayload s.pbc.toNat b).setPbc (s.pbc + 1#4))
      (((s.setPbuf q).writePayload s.pbc.toNat b).setPbc (s.pbc + 1#4)) := by
  refine ⟨rfl, fun _ j hj => ?_⟩
  simp only [State.setPbc_pbc, State.setPbc_pbuf] at hj ⊢
  rw [payloadByte_writePayload, payloadByte_writePayload, State.setPbuf_pbuf]
  by_cases written : s.pbc.toNat = j ∧ j < 14
  · rw [if_pos written, if_pos written]
  · rw [if_neg written, if_neg written]
    exact agree inPayload j (by bv_omega)

/-- The last byte written over 13 agreeing bytes makes one payload: nothing unread is left when the decode runs. -/
theorem writePayload_last_setPbuf {s : State} {q : Payload} (b : Byte) (agree : s.AgreesBelowCount q)
    (inPayload : s.sync = syncInPayload) (at13 : s.pbc = 13#4) :
    (s.setPbuf q).writePayload 13 b = s.writePayload 13 b := by
  have same : ((s.setPbuf q).writePayload 13 b).pbuf = (s.writePayload 13 b).pbuf := by
    apply payload_ext
    intro j hj
    rw [payloadByte_writePayload, payloadByte_writePayload, State.setPbuf_pbuf]
    by_cases written : 13 = j ∧ j < 14
    · rw [if_pos written, if_pos written]
    · rw [if_neg written, if_neg written]
      exact agree inPayload j (by rw [at13, BitVec.toNat_ofNat]; omega)
  exact congrArg s.setPbuf same

/-- A byte operation keeps unread differences unread. -/
theorem byteAfter_sameButStaleBytes (b : Byte) {s : State} {q : Payload} (agree : s.AgreesBelowCount q) :
    SameButStaleBytes (byteAfter b s) (byteAfter b (s.setPbuf q)) := by
  rcases sync_cases s.sync with idle | gotFirst | inPayload | illegal
  · rw [byteAfter_idle b s idle, byteAfter_idle b (s.setPbuf q) idle]
    split_ifs
    · exact sameButStaleBytes_setPbuf ((s.setSync syncGotFirst).setPbc 0#4) q (by simp)
    · exact sameButStaleBytes_setPbuf s q (by simp [idle])
  · rw [byteAfter_gotFirst b s gotFirst, byteAfter_gotFirst b (s.setPbuf q) gotFirst]
    split_ifs
    · exact .refl _
    · exact sameButStaleBytes_setPbuf (s.setSync syncIdle) q (by simp)
  · rcases pbc_cases s.pbc with room | last | overrun
    · rw [byteAfter_append b s inPayload room, byteAfter_append b (s.setPbuf q) inPayload room]
      exact append_sameButStaleBytes b agree inPayload room
    · rw [byteAfter_last b s inPayload last, byteAfter_last b (s.setPbuf q) inPayload last,
        writePayload_last_setPbuf b agree inPayload last]
      exact .refl _
    · rw [byteAfter_overrun b s inPayload overrun, byteAfter_overrun b (s.setPbuf q) inPayload overrun]
      exact sameButStaleBytes_setPbuf (s.setSync syncIdle) q (by simp)
  · rw [byteAfter_illegal b s illegal, byteAfter_illegal b (s.setPbuf q) illegal]
    exact sameButStaleBytes_setPbuf (s.setSync syncIdle) q (by simp)

/-- A register operation writes neither SYNC, PBC nor PBUF, so the same bytes stay unread. -/
theorem regAfter_agreesBelowCount (p : Pins) (s : State) {q : Payload} (agree : s.AgreesBelowCount q) :
    (regAfter p s).AgreesBelowCount q := by
  unfold State.AgreesBelowCount
  rw [regAfter_sync, regAfter_pbc, regAfter_pbuf]
  exact agree

/-- A step keeps unread differences unread: both states have the same pins ahead, so they take the same kind of step. -/
theorem stepAfter_sameButStaleBytes {s : State} {q : Payload} (agree : s.AgreesBelowCount q) :
    SameButStaleBytes (stepAfter s) (stepAfter (s.setPbuf q)) := by
  have begun : regAfter s.nextPins (s.setPbuf q).beginStep = (regAfter s.nextPins s.beginStep).setPbuf q :=
    regAfter_setPbuf s.nextPins s.beginStep q
  have agreeBegun := regAfter_agreesBelowCount s.nextPins s.beginStep agree
  rcases step_kinds s with reset | ⟨noReset, accepted⟩ | ⟨noReset, refused⟩
  · rw [stepAfter_of_reset s reset, stepAfter_of_reset (s.setPbuf q) reset]
    exact .refl _
  · rw [stepAfter_of_accepts s noReset accepted, stepAfter_of_accepts (s.setPbuf q) noReset accepted]
    exact begun ▸ byteAfter_sameButStaleBytes s.nextPins.inData agreeBegun
  · rw [stepAfter_of_no_byte s noReset refused, stepAfter_of_no_byte (s.setPbuf q) noReset refused]
    exact (sameButStaleBytes_iff _ _).mpr ⟨q, begun, agreeBegun⟩

/-- Settles O59. -/
theorem stalePayloadBytesAreUnobservable : Obligations.StalePayloadBytesAreUnobservable := by
  intro s t same
  obtain ⟨q, rfl, agree⟩ := (sameButStaleBytes_iff s t).mp same
  exact ⟨stepAfter s, stepAfter (s.setPbuf q), step_next _, step_next _, stepAfter_sameButStaleBytes agree,
    regRead_setPbuf s q⟩

end Sys2Proof.Machine
end

section
/-! The block's byte step is the source's parser on that byte (10_state.md R34, 43_host.md R220): the parser's words and entries are
the block's lanes, its decoder does by the same three kinds of half-frame what HalfFrameEffect says of the block, and each byte
operation is one branch of the parser's synchronizer. -/

namespace Sys2Proof.Machine

/-! ### The parser's view of a payload -/

/-- The payload's bytes as the parser holds them. -/
def payloadNats (p : Payload) : List Nat := p.toList.map BitVec.toNat

/-- A lane as the parser's entry: the channel id and the pulse width. -/
def laneEntry (l : Lane) : Nat × Nat := (l.chid.toNat, l.pw.toNat)

/-- The 14 bytes of a payload, one by one. -/
theorem payload_toList (p : Payload) : p.toList = (List.range 14).map (payloadByte p) := by
  apply List.ext_getElem
  · simp
  · intro j hj hj'
    have inBounds : j < 14 := by simpa using hj
    simp [payloadByte, inBounds]

theorem payloadWord_toNat (p : Payload) (k : Nat) :
    (payloadWord p k).toNat = 256 * (payloadByte p (2 * k)).toNat + (payloadByte p (2 * k + 1)).toNat := by
  unfold payloadWord
  rw [BitVec.toNat_append, ← Nat.shiftLeft_add_eq_or_of_lt (BitVec.isLt _), Nat.shiftLeft_eq, Nat.mul_comm]

theorem wordsOf_payloadNats (p : Payload) : wordsOf (payloadNats p) = (payloadWords p).map BitVec.toNat := by
  unfold payloadNats payloadWords
  rw [payload_toList, List.map_map, List.map_map]
  simp only [List.range, List.range.loop, List.map_cons, List.map_nil, Function.comp_apply, wordsOf,
    payloadWord_toNat]

theorem entryOf_toNat (w : PayloadWord) : entryOf w.toNat = laneEntry (laneDecode w) := by
  simp only [entryOf, laneEntry, laneDecode, wordChid, wordPw, wordRaw, BitVec.extractLsb'_toNat, BitVec.toNat_mul,
    BitVec.truncate_eq_setWidth, BitVec.toNat_setWidth, BitVec.toNat_ofNat, Nat.shiftRight_eq_div_pow, Nat.reducePow,
    Nat.reduceMod, Prod.mk.injEq, true_and]
  omega

/-- The parser's entries of a payload are the block's lanes. -/
theorem entries_payloadNats (p : Payload) :
    (wordsOf (payloadNats p)).map entryOf = (payloadLanes p).map laneEntry := by
  rw [wordsOf_payloadNats, payloadLanes, List.map_map, List.map_map]
  exact List.map_congr_left fun w _ => entryOf_toNat w

/-- The parser's test of an entry is the block's V of the lane (41_decode.md R141). -/
theorem all_entryValid (p : Payload) :
    ((payloadLanes p).map laneEntry).all entryValid = (payloadLanes p).all (fun l => l.valid) := by
  unfold payloadLanes
  rw [List.map_map, List.all_map, List.all_map]
  rfl

/-- The parser counts seven valid words exactly if all are valid. -/
theorem seven_valid_iff (p : Payload) :
    (((payloadLanes p).map laneEntry).filter entryValid).length = 7 ↔ (payloadLanes p).all (fun l => l.valid) = true := by
  have seven : ((payloadLanes p).map laneEntry).length = 7 := by simp [payloadLanes, payloadWords]
  rw [← all_entryValid, List.all_eq_true, ← List.length_filter_eq_length_iff, seven]

theorem payloadNats_head (p : Payload) : (payloadNats p).headD 0 = (payloadByte p 0).toNat := by
  unfold payloadNats
  rw [payload_toList]
  rfl

/-- MID as the parser divides for it. -/
theorem payloadMid_eq (p : Payload) : payloadMid p = decide ((payloadNats p).headD 0 / 128 = 1) := by
  rw [payloadNats_head]
  unfold payloadMid
  generalize payloadByte p 0 = b
  revert b; decide

theorem payloadMid_false_iff (p : Payload) : payloadMid p = false ↔ (payloadNats p).headD 0 / 128 = 0 := by
  rw [payloadNats_head]
  unfold payloadMid
  generalize payloadByte p 0 = b
  revert b; decide

/-- The parser's decoder by the kind of the half-frame (41_decode.md R143 to R145). -/
theorem Parser.decode_eq (pol : Id0Policy) {q : Parser} {p : Payload} (h : q.payloadBuffer = payloadNats p) :
    q.decode pol =
      match halfKind p with
      | .discard => { q with channelUpdateCount := 0 }
      | .first => { q with
          channelMap := storeEntries (if pol = .replace then fun _ => none else q.channelMap)
            ((payloadLanes p).map laneEntry)
          channelUpdateCount := 7 }
      | .second => { q with
          channelMap := storeEntries q.channelMap ((payloadLanes p).map laneEntry)
          channelUpdateCount := q.channelUpdateCount + 7
          frameReady := q.frameReady || decide (q.channelUpdateCount + 7 = 14) } := by
  unfold Parser.decode halfKind
  simp only [h, entries_payloadNats, ne_eq, seven_valid_iff]
  by_cases valid : (payloadLanes p).all (fun l => l.valid) = true
  · cases mid : payloadMid p with
    | false => simp only [valid, not_true_eq_false, if_false, if_true, (payloadMid_false_iff p).mp mid, Bool.false_eq_true]
    | true =>
      have second : ¬ (payloadNats p).headD 0 / 128 = 0 := by rw [← payloadMid_false_iff, mid]; decide
      simp only [valid, not_true_eq_false, if_false, if_true, second]
  · simp only [valid, not_false_eq_true, if_true, Bool.false_eq_true, if_false]

/-! ### The channel map -/

/-- A slot as the parser's map holds it: nothing if it is not populated. -/
def State.slotValue (s : State) (c : Nat) : Option Nat := if s.populated c then some (s.slotPw c).toNat else none

theorem slotValue_congr {s t : State} (pop : t.chPop = s.chPop) (pw : t.chPw = s.chPw) (c : Nat) :
    t.slotValue c = s.slotValue c := by
  unfold State.slotValue State.populated State.slotPw
  rw [pop, pw]

/-- Entries leave a channel that none of them names. -/
theorem storeEntries_of_unnamed (m : Nat → Option Nat) {ls : List Lane} {c : Nat} (h : ∀ l ∈ ls, l.chid.toNat ≠ c) :
    storeEntries m (ls.map laneEntry) c = m c := by
  induction ls generalizing m with
  | nil => rfl
  | cons l ls ih =>
    have rest := ih (fun d => if d = l.chid.toNat then some l.pw.toNat else m d) fun l' hl' => h l' (by simp [hl'])
    have elsewhere : ¬ c = l.chid.toNat := fun e => h l (by simp) e.symm
    exact rest.trans (if_neg elsewhere)

/-- Of the entries that name a channel the last one stays (41_decode.md R147). -/
theorem storeEntries_of_last (m : Nat → Option Nat) {ls : List Lane} {c k : Nat} (hk : k < ls.length)
    (named : ls[k].chid.toNat = c) (last : ∀ (k' : Nat) (hk' : k' < ls.length), k < k' → ls[k'].chid.toNat ≠ c) :
    storeEntries m (ls.map laneEntry) c = some ls[k].pw.toNat := by
  induction ls generalizing m k with
  | nil => exact absurd hk (by simp)
  | cons l ls ih =>
    cases k with
    | zero =>
      have others : ∀ l' ∈ ls, l'.chid.toNat ≠ c := by
        intro l' hl'
        obtain ⟨i, hi, rfl⟩ := List.getElem_of_mem hl'
        exact last (i + 1) (by simpa using hi) (by omega)
      exact (storeEntries_of_unnamed _ others).trans (if_pos named.symm)
    | succ k =>
      exact ih _ (by simpa using hk) named fun k' hk' later => last (k' + 1) (by simpa using hk') (by omega)

/-- The block's store after the lanes is the parser's map after the entries, where the two held the same before or where both are
emptied. -/
theorem SlotsWritten.slotValue_eq {s t : State} {ls : List Lane} {emptied : Bool} (h : SlotsWritten s t ls emptied)
    {m : Nat → Option Nat} (same : ∀ c, c < 14 → m c = if emptied then none else s.slotValue c) (c : Nat) (hc : c < 14) :
    storeEntries m (ls.map laneEntry) c = t.slotValue c := by
  obtain ⟨written, others⟩ := h c hc
  rcases exists_last_lane ls c with none | ⟨k, hk, named, last⟩
  · rw [storeEntries_of_unnamed m none, same c hc]
    obtain ⟨empty, kept⟩ := others none
    cases emptied with
    | true => simp [State.slotValue, empty rfl]
    | false => simp [State.slotValue, kept rfl]
  · rw [storeEntries_of_last m hk named last]
    simp [State.slotValue, written k hk named last]

/-! ### The decode -/

/-- The part of the correspondence that a half-frame acts on: the map, the count and FRAME_READY (10_state.md R34). -/
def State.StoreCorresponds (s : State) (q : Parser) : Prop :=
  (∀ c, c < 14 → q.channelMap c = s.slotValue c) ∧ s.cuc.toNat = min q.channelUpdateCount 31 ∧ s.frameReady = q.frameReady

/-- The saturated count reaches 14 by a second half exactly if the unbounded one was 7 (41_decode.md R149). -/
theorem count_completes_iff {x y : BitVec 5} {n : Nat} (before : x.toNat = min n 31)
    (more : y.toNat = min (x.toNat + 7) 31) : y = 14#5 ↔ n = 7 := by
  rw [← BitVec.toNat_inj, BitVec.toNat_ofNat]
  omega

/-- A half-frame does to the block what the parser's decoder does to the parser, and HOLD rises exactly if a cycle completes. -/
theorem HalfFrameEffect.refines_decode {s t : State} {p : Payload} (h : HalfFrameEffect s t p) (q : Parser)
    (buffer : q.payloadBuffer = payloadNats p) (store : s.StoreCorresponds q) :
    t.StoreCorresponds (q.decode s.id0Policy)
    ∧ t.hold = (s.hold || (halfKind p == .second && decide (q.channelUpdateCount = 7))) := by
  obtain ⟨map, count, ready⟩ := store
  rw [Parser.decode_eq s.id0Policy buffer]
  cases kind : halfKind p with
  | discard =>
    simp only [HalfFrameEffect, kind] at h
    obtain ⟨pop, pw, zero, ready', hold'⟩ := h
    refine ⟨⟨fun c hc => ?_, by rw [zero]; rfl, by rw [ready', ready]⟩, by simp [hold']⟩
    exact (map c hc).trans (slotValue_congr pop pw c).symm
  | first =>
    simp only [HalfFrameEffect, kind] at h
    obtain ⟨slots, seven, ready', hold'⟩ := h
    refine ⟨⟨slots.slotValue_eq fun c hc => ?_, by rw [seven]; rfl, by rw [ready', ready]⟩, by simp [hold']⟩
    by_cases replace : s.id0Policy = .replace
    · simp [replace]
    · simp [replace, map c hc]
  | second =>
    simp only [HalfFrameEffect, kind] at h
    obtain ⟨slots, more, ready', hold'⟩ := h
    have completes := count_completes_iff count more
    refine ⟨⟨slots.slotValue_eq fun c hc => ?_, ?_, ?_⟩, ?_⟩
    · simp [map c hc]
    · show t.cuc.toNat = min (q.channelUpdateCount + 7) 31
      omega
    · simp [ready', ready, completes]
    · simp [hold', completes]

/-! ### The byte -/

theorem toNat_eq_zero_iff (b : Byte) : b.toNat = 0 ↔ b = 0x00#8 := by
  rw [← BitVec.toNat_inj, BitVec.toNat_ofNat]

/-- The parser's buffer with one more byte, as the block's PBUF with that byte written at the count. -/
theorem take_writePayload (s : State) (b : Byte) (n : Nat) (hn : n < 14) :
    ((s.writePayload n b).pbuf.toList.take (n + 1)).map BitVec.toNat
      = (s.pbuf.toList.take n).map BitVec.toNat ++ [b.toNat] := by
  have list : (s.writePayload n b).pbuf.toList = s.pbuf.toList.set n b := by
    simp [State.writePayload]
  have room : n < s.pbuf.toList.length := by simpa using hn
  rw [list, List.set_eq_take_append_cons_drop, if_pos room]
  simp [List.take_append, Nat.min_eq_left hn.le]

/-- The parser with one more payload byte in its buffer. -/
def Parser.append (q : Parser) (b : Nat) : Parser :=
  { q with payloadBuffer := q.payloadBuffer ++ [b], payloadByteCount := q.payloadByteCount + 1 }

theorem Parser.feed_append (pol : Id0Policy) {q : Parser} (b : Nat) (sync : q.syncState = .inPayload)
    (room : q.payloadByteCount ≤ 12) : q.feed pol b = q.append b := by
  unfold Parser.feed Parser.append
  rw [sync]
  exact if_pos (Nat.add_lt_add_right (Nat.lt_succ_of_le room) 1)

theorem Parser.feed_last (pol : Id0Policy) {q : Parser} (b : Nat) (sync : q.syncState = .inPayload)
    (last : q.payloadByteCount = 13) : q.feed pol b = { (q.append b).decode pol with syncState := .idle } := by
  unfold Parser.feed Parser.append
  rw [sync]
  exact if_neg (by rw [last]; decide)

theorem Parser.decode_payloadByteCount (pol : Id0Policy) (q : Parser) :
    (q.decode pol).payloadByteCount = q.payloadByteCount := by
  unfold Parser.decode
  dsimp only
  split_ifs <;> rfl

theorem halfKind_second (p : Payload) :
    (halfKind p == .second) = ((payloadLanes p).all (fun l => l.valid) && payloadMid p) := by
  unfold halfKind
  cases (payloadLanes p).all (fun l => l.valid) <;> cases payloadMid p <;> rfl

/-- At a payload's last byte the parser completes a cycle if the payload is a valid second half and the count was 7. -/
theorem Parser.completesAt_last {q : Parser} {b : Nat} {p : Payload} (sync : q.syncState = .inPayload)
    (last : q.payloadByteCount = 13) (full : q.payloadBuffer ≠ []) (whole : q.payloadBuffer ++ [b] = payloadNats p) :
    q.completesAt b = (halfKind p == .second && decide (q.channelUpdateCount = 7)) := by
  have head : (payloadNats p).headD 0 = q.payloadBuffer.headD 0 := by
    rw [← whole]
    obtain ⟨x, xs, cons⟩ := List.exists_cons_of_ne_nil full
    simp [cons]
  rw [halfKind_second, payloadMid_eq, head, ← all_entryValid, ← entries_payloadNats, ← whole]
  simp [Parser.completesAt, sync, last]

/-- The byte operation of b does to the block what the parser's synchronizer does to the parser on b, and HOLD rises exactly if that
completes a cycle. -/
def ByteRefines (b : Byte) (s : State) (q : Parser) : Prop :=
  (byteAfter b s).Corresponds (q.feed s.id0Policy b.toNat)
  ∧ (byteAfter b s).hold = (s.hold || q.completesAt b.toNat)

/-- A byte outside InPayload moves the synchronizers alike and completes nothing (40_sync.md R111 to R114). -/
theorem byteAfter_idle_corresponds (b : Byte) {s : State} {q : Parser} (h : s.Corresponds q)
    (sync : q.syncState = .idle) : ByteRefines b s q := by
  obtain ⟨position, count, -, store⟩ := h
  rw [sync] at position
  unfold ByteRefines
  rw [byteAfter_idle b s position]
  simp only [Parser.feed, sync, toNat_eq_zero_iff]
  split_ifs
  · exact ⟨⟨rfl, rfl, nofun, store⟩, by simp [Parser.completesAt, sync]⟩
  · have notInPayload : q.syncState ≠ .inPayload := by simp [sync]
    exact ⟨⟨by rw [sync]; exact position, count, fun e => absurd e notInPayload, store⟩, by simp [Parser.completesAt, sync]⟩

theorem byteAfter_gotFirst_corresponds (b : Byte) {s : State} {q : Parser} (h : s.Corresponds q)
    (sync : q.syncState = .gotFirstSyncByte) : ByteRefines b s q := by
  obtain ⟨position, count, -, store⟩ := h
  rw [sync] at position
  unfold ByteRefines
  rw [byteAfter_gotFirst b s position]
  simp only [Parser.feed, sync, toNat_eq_zero_iff]
  split_ifs
  · exact ⟨⟨rfl, rfl, fun _ => ⟨Nat.zero_le 13, rfl⟩, store⟩, by simp [Parser.completesAt, sync]⟩
  · exact ⟨⟨rfl, count, nofun, store⟩, by simp [Parser.completesAt, sync]⟩

/-- A payload's byte that is not the last joins both buffers and moves both counts (40_sync.md R115). -/
theorem byteAfter_append_corresponds (b : Byte) {s : State} {q : Parser} (h : s.Corresponds q)
    (sync : q.syncState = .inPayload) (room : s.pbc.toNat ≤ 12) : ByteRefines b s q := by
  obtain ⟨position, count, buffer, store⟩ := h
  obtain ⟨-, bytes⟩ := buffer sync
  have inPayload : s.sync = syncInPayload := by rw [position, sync]
  have next : (s.pbc + 1#4).toNat = q.payloadByteCount + 1 := by bv_omega
  have appended : q.payloadBuffer ++ [b.toNat]
      = ((s.writePayload s.pbc.toNat b).pbuf.toList.take (q.payloadByteCount + 1)).map BitVec.toNat := by
    rw [bytes, ← count]
    exact (take_writePayload s b s.pbc.toNat (by omega)).symm
  unfold ByteRefines
  rw [byteAfter_append b s inPayload room, Parser.feed_append s.id0Policy b.toNat sync (by omega)]
  refine ⟨⟨position, next, fun _ => ⟨?_, appended⟩, store⟩, ?_⟩
  · show q.payloadByteCount + 1 ≤ 13
    omega
  · have notLast : q.payloadByteCount ≠ 13 := by omega
    simp [Parser.completesAt, notLast]

/-- A payload's last byte makes both decode the same 14 bytes (40_sync.md R116). -/
theorem byteAfter_last_corresponds (b : Byte) {s : State} {q : Parser} (h : s.Corresponds q)
    (sync : q.syncState = .inPayload) (at13 : s.pbc = 13#4) : ByteRefines b s q := by
  obtain ⟨position, count, buffer, store⟩ := h
  obtain ⟨-, bytes⟩ := buffer sync
  have inPayload : s.sync = syncInPayload := by rw [position, sync]
  have last : q.payloadByteCount = 13 := by rw [← count, at13]; rfl
  rw [last] at bytes
  have full : q.payloadBuffer ≠ [] := by simp [bytes]
  have whole : q.payloadBuffer ++ [b.toNat] = payloadNats (s.pbuf.set 13 b) := by
    rw [bytes, ← take_writePayload s b 13 (by omega), writePayload_last, List.take_of_length_le (by simp)]
    rfl
  obtain ⟨effect, frame⟩ := byteAfter_last_spec b s inPayload at13
  obtain ⟨stored, hold⟩ := effect.refines_decode (q.append b.toNat) whole store
  unfold ByteRefines
  rw [Parser.feed_last s.id0Policy b.toNat sync last]
  refine ⟨⟨by rw [frame], ?_, nofun, stored⟩, ?_⟩
  · rw [frame]
    show 14 = ((q.append b.toNat).decode s.id0Policy).payloadByteCount
    rw [Parser.decode_payloadByteCount]
    exact congrArg Nat.succ last.symm
  · rw [hold, Parser.completesAt_last sync last full whole]
    rfl

/-- Every byte operation refines the parser; R35(b) leaves no overrun. -/
theorem byteAfter_corresponds (b : Byte) {s : State} {q : Parser} (h : s.Corresponds q) : ByteRefines b s q := by
  cases sync : q.syncState with
  | idle => exact byteAfter_idle_corresponds b h sync
  | gotFirstSyncByte => exact byteAfter_gotFirst_corresponds b h sync
  | inPayload =>
    rcases pbc_cases s.pbc with room | last | overrun
    · exact byteAfter_append_corresponds b h sync room
    · exact byteAfter_last_corresponds b h sync last
    · obtain ⟨-, count, buffer, -⟩ := h
      obtain ⟨atMost13, -⟩ := buffer sync
      omega

/-- Settles O57: with HOLD = 0 the step is the byte operation, and that refines the parser. -/
theorem byteStepRefinesTheParser : Obligations.ByteStepRefinesTheParser := by
  intro s q b rest corresponds noHold inputs
  have pins : s.nextPins = bytePins b := by simp [State.nextPins, inputs]
  have accepted : s.accepts s.nextPins = true := by
    rw [pins]
    simp [State.accepts, acceptsByte, bytePins, idlePins, noHold]
  have run : stepAfter s = byteAfter b s.beginStep := by
    rw [stepAfter_of_accepts s (by rw [pins]; rfl) accepted, pins]
    rfl
  have begun : s.beginStep.Corresponds q := corresponds
  obtain ⟨refines, hold⟩ := byteAfter_corresponds b begun
  rw [← run] at refines hold
  refine ⟨stepAfter s, step_next s, refines, hold.trans ?_⟩
  show (s.hold || q.completesAt b.toNat) = q.completesAt b.toNat
  rw [noHold, Bool.false_or]

/-- Settles O58. -/
theorem resetCorrespondsToAFreshParser : Obligations.ResetCorrespondsToAFreshParser := by
  refine ⟨rfl, rfl, nofun, fun c _ => ?_, rfl, rfl⟩
  have unpopulated : State.reset.populated c = false := populated_emptyStore State.reset c
  rw [unpopulated]
  rfl

end Sys2Proof.Machine
end

section
/-! A step that asks nothing of the block writes only its outputs and takes its pins (20_memory.md R56, 40_sync.md R122). -/

namespace Sys2Proof.Machine

@[simp] theorem State.setRegRdata_own (s : State) (v : RegWord) : (s.setRegRdata v).own = s.own := rfl

/-- Taking the step's pins and showing its in_ready writes nothing of the block's own. -/
@[simp] theorem State.beginStep_own (s : State) : s.beginStep.own = s.own := rfl

theorem Pins.asksNothing_iff (p : Pins) :
    p.asksNothing = true ↔ p.rst = false ∧ p.inValid = false ∧ p.regWe = false := by
  simp [Pins.asksNothing, and_assoc]

/-- A register read's whole effect is the value on reg_rdata (20_memory.md R56). -/
theorem regAfter_own_of_no_write (p : Pins) (s : State) (noWrite : p.regWe = false) : (regAfter p s).own = s.own := by
  cases read : p.regRe with
  | true =>
    have run : regAfter p s = s.setRegRdata (s.regRead p.regAddr) := by simp [regAfter, noWrite, read]
    rw [run, State.setRegRdata_own]
  | false =>
    have run : regAfter p s = s := by simp [regAfter, noWrite, read]
    rw [run]

/-- With no byte presented the step is its register operation (40_sync.md R122), which here is at most a read. -/
theorem stepAfter_own_of_asksNothing {s : State} (h : s.nextPins.asksNothing = true) : (stepAfter s).own = s.own := by
  obtain ⟨noReset, noByte, noWrite⟩ := (Pins.asksNothing_iff _).mp h
  have refused : s.accepts s.nextPins = false := by simp [State.accepts, noByte]
  rw [stepAfter_of_no_byte s noReset refused, regAfter_own_of_no_write _ _ noWrite, State.beginStep_own]

/-- Settles O54: a step answers `stepAfter`, and that keeps the block's own state where the pins ask nothing. -/
theorem readsAndIdleStepsHaveNoSideEffect : Obligations.ReadsAndIdleStepsHaveNoSideEffect := by
  intro s asksNothing
  exact ⟨stepAfter s, step_next s, stepAfter_own_of_asksNothing asksNothing⟩

end Sys2Proof.Machine
end

section
/-! The keys (30_encoding.md R86 to R89): `encode` and `decode` are inverse to each other, said once for the fields of each format. The
decoder's side is `decode_byte`, `decode_word`, `decode_half`, `decode_read`, `decode_write` and `decode_rst`; here stand the encoder's. -/

namespace Sys2Proof

/-! ### From an operation to its key and back -/

/-- BYTE_PAYLOAD_OVERRUN's row leaves the low bit of PBC free, above three ones. -/
theorem byteOperation_overrun (p : BitVec 1) (b : Byte) :
    byteOperation 0b10#2 (0b111#3 ++ p) b = .bytePayloadOverrun p b := by
  have pbc : ¬ 0b111#3 ++ p = 13#4 ∧ 14#4 ≤ 0b111#3 ++ p ∧ (0b111#3 ++ p).extractLsb' 0 1 = p := by revert p; decide
  obtain ⟨notLast, overrun, bit⟩ := pbc
  simp [byteOperation, notLast, overrun, bit]

theorem byteOperation_append (p : BitVec 4) (b : Byte) (h : p ≤ 12#4) :
    byteOperation 0b10#2 p b = .bytePayloadAppend p b := by
  have notLast : ¬ p = 13#4 := by bv_omega
  have notOver : ¬ 14#4 ≤ p := by bv_omega
  simp [byteOperation, notLast, notOver]

/-- The address of a channel register, from the high digit of its range and the channel (20_memory.md R58). -/
theorem readOperation_channel (c : BitVec 4) (h : c ≤ 13#4) :
    readOperation (0b0001#4 ++ c) = .rdChRaw c ∧ readOperation (0b0010#4 ++ c) = .rdChOfs c
    ∧ readOperation (0b010#3 ++ c ++ 0b0#1) = .rdChNormLo c ∧ readOperation (0b010#3 ++ c ++ 0b1#1) = .rdChNormHi c := by
  revert c; decide

/-- The addresses left over at the end of each channel range, two or four for a row (30_encoding.md R89). -/
theorem readOperation_reserved :
    (∀ a : BitVec 1, readOperation (0b0001111#7 ++ a) = .rdReserved1E a)
    ∧ (∀ a : BitVec 1, readOperation (0b0010111#7 ++ a) = .rdReserved2E a)
    ∧ (∀ a : BitVec 2, readOperation (0b010111#6 ++ a) = .rdReserved5C a) := by
  decide

/-- The ranges that `readTaken` lists are those of the rows before RD_RESERVED's last one. -/
theorem readOperation_of_not_taken (a : RegAddr) (h : Instr.readTaken a = false) :
    readOperation a = .rdReservedOther a := by
  simp only [Instr.readTaken, Bool.or_eq_false_iff, beq_eq_false_iff_ne, Bool.and_eq_false_iff,
    decide_eq_false_iff_not] at h
  obtain ⟨⟨notStatus, notLow⟩, notHigh⟩ := h
  have range (lo hi : RegAddr) (h : (0x10#8 ≤ lo ∧ hi ≤ 0x2F#8) ∨ (0x40#8 ≤ lo ∧ hi ≤ 0x5F#8)) : ¬ (lo ≤ a ∧ a ≤ hi) := by
    bv_omega
  unfold readOperation
  rw [if_neg notStatus, if_neg (range _ _ (by decide)), if_neg (range _ _ (by decide)), if_neg (range _ _ (by decide)),
    if_neg (range _ _ (by decide)), if_neg (range _ _ (by decide)),
    if_neg fun ⟨above, below, _⟩ => range _ _ (by decide) ⟨above, below⟩,
    if_neg fun ⟨above, below, _⟩ => range _ _ (by decide) ⟨above, below⟩]

theorem decode_byte_of_fields {k : BitVec 14} {y : BitVec 2} {p : BitVec 4} {b : Byte} {i : Instr} (key : k = y ++ p ++ b)
    (operation : byteOperation y p b = i) : decode (.byte k) = .ok i := by
  rw [key, decode_byte, operation]

theorem decode_read_of_address {k : BitVec 9} {a : RegAddr} {i : Instr} {d : RegWord} (key : k = 0#1 ++ a)
    (operation : readOperation a = i) : decode (.reg k d) = .ok i := by
  rw [key, decode_read, operation]

/-- The encodings of the channel reads, as the read bit and the address. -/
theorem channelKey_eq (c : BitVec 4) :
    0b00001#5 ++ c = 0#1 ++ (0b0001#4 ++ c) ∧ 0b00010#5 ++ c = 0#1 ++ (0b0010#4 ++ c)
    ∧ 0b0010#4 ++ c ++ 0b0#1 = 0#1 ++ (0b010#3 ++ c ++ 0b0#1) ∧ 0b0010#4 ++ c ++ 0b1#1 = 0#1 ++ (0b010#3 ++ c ++ 0b1#1) := by
  revert c; decide

/-- The encodings of the reserved reads at a range's end, as the read bit and the address. -/
theorem reservedKey_eq :
    (∀ a : BitVec 1, 0b00001111#8 ++ a = 0#1 ++ (0b0001111#7 ++ a))
    ∧ (∀ a : BitVec 1, 0b00010111#8 ++ a = 0#1 ++ (0b0010111#7 ++ a))
    ∧ (∀ a : BitVec 2, 0b0010111#7 ++ a = 0#1 ++ (0b010111#6 ++ a)) := by
  decide

theorem decode_channelKey (c : BitVec 4) (h : c ≤ 13#4) (d : RegWord) :
    decode (.reg (0b00001#5 ++ c) d) = .ok (.rdChRaw c) ∧ decode (.reg (0b00010#5 ++ c) d) = .ok (.rdChOfs c)
    ∧ decode (.reg (0b0010#4 ++ c ++ 0b0#1) d) = .ok (.rdChNormLo c)
    ∧ decode (.reg (0b0010#4 ++ c ++ 0b1#1) d) = .ok (.rdChNormHi c) := by
  obtain ⟨rawKey, ofsKey, loKey, hiKey⟩ := channelKey_eq c
  obtain ⟨raw, ofs, lo, hi⟩ := readOperation_channel c h
  exact ⟨decode_read_of_address rawKey raw, decode_read_of_address ofsKey ofs, decode_read_of_address loKey lo,
    decode_read_of_address hiKey hi⟩

/-- The decoder inverts the encoder: each operation's key is its fields put together, and the decoder's answer for those fields is
the operation. -/
theorem decode_encode (i : Instr) (h : i.wf = true) : decode (encode i) = .ok i := by
  obtain ⟨key1E, key2E, key5C⟩ := reservedKey_eq
  obtain ⟨reserved1E, reserved2E, reserved5C⟩ := readOperation_reserved
  cases i with
  | byteIdleSync1 p => exact decode_byte 0b00#2 p 0x00#8
  | byteSync2 p => exact decode_byte 0b01#2 p 0x00#8
  | bytePayloadLast b => exact decode_byte 0b10#2 13#4 b
  | bytePayloadOverrun p b =>
    exact decode_byte_of_fields (Laws.OwnRowBuildsIt.overrunKey_eq p b) (byteOperation_overrun p b)
  | byteIllegalState p b => exact decode_byte 0b11#2 p b
  | byteIdleSkip p b =>
    have nonzero : b ≠ 0x00#8 := by simpa [Instr.wf] using h
    exact decode_byte_of_fields rfl (by simp [byteOperation, nonzero])
  | byteSyncFail p b =>
    have nonzero : b ≠ 0x00#8 := by simpa [Instr.wf] using h
    exact decode_byte_of_fields rfl (by simp [byteOperation, nonzero])
  | bytePayloadAppend p b => exact decode_byte_of_fields rfl (byteOperation_append p b (of_decide_eq_true h))
  | decodeWord w => exact decode_word w
  | hfCommit0 => exact decode_half 0#1 1#1
  | hfCommit1 => exact decode_half 1#1 1#1
  | hfDiscard m => exact decode_half m 0#1
  | rdStatus => exact decode_read 0x00#8 0#32
  | wrControl d => exact decode_write 0x01#8 d
  | rdReserved1E a => exact decode_read_of_address (key1E a) (reserved1E a)
  | rdReserved2E a => exact decode_read_of_address (key2E a) (reserved2E a)
  | rdReserved5C a => exact decode_read_of_address (key5C a) (reserved5C a)
  | rdChRaw c =>
    obtain ⟨raw, -, -, -⟩ := decode_channelKey c (of_decide_eq_true h) 0#32
    exact raw
  | rdChOfs c =>
    obtain ⟨-, ofs, -, -⟩ := decode_channelKey c (of_decide_eq_true h) 0#32
    exact ofs
  | rdChNormLo c =>
    obtain ⟨-, -, lo, -⟩ := decode_channelKey c (of_decide_eq_true h) 0#32
    exact lo
  | rdChNormHi c =>
    obtain ⟨-, -, -, hi⟩ := decode_channelKey c (of_decide_eq_true h) 0#32
    exact hi
  | rdReservedOther a => exact decode_read_of_address rfl (readOperation_of_not_taken a (by simpa [Instr.wf] using h))
  | wrIgnored a d =>
    have notControl : a ≠ 0x01#8 := by simpa [Instr.wf] using h
    exact (decode_write a d).trans (by rw [if_neg notControl])
  | reset => exact decode_rst

/-- Settles O1. -/
theorem decodeOfEncodeIsTheOperation : Obligations.DecodeOfEncodeIsTheOperation := decode_encode

/-! ### From a key to its operation and back -/

/-- The key of i is k, and i is well-formed. -/
def Instr.HasKey (i : Instr) (k : OpKey) : Prop := i.wf = true ∧ encode i = k

/-- PBC in BYTE_PAYLOAD_OVERRUN's row is 14 or 15. -/
theorem overrunPbc_eq (p : BitVec 4) (h : 14#4 ≤ p) : 0b111#3 ++ p.extractLsb' 0 1 = p := by
  revert p; decide

theorem byteOperation_hasKey (y : BitVec 2) (p : BitVec 4) (b : Byte) :
    (byteOperation y p b).HasKey (.byte (y ++ p ++ b)) := by
  unfold byteOperation
  split_ifs with idle zero gotFirst zero inPayload last overrun
  · subst idle zero
    exact ⟨rfl, rfl⟩
  · subst idle
    exact ⟨by simpa [Instr.wf] using zero, rfl⟩
  · subst gotFirst zero
    exact ⟨rfl, rfl⟩
  · subst gotFirst
    exact ⟨by simpa [Instr.wf] using zero, rfl⟩
  · subst inPayload last
    exact ⟨rfl, rfl⟩
  · subst inPayload
    have key := Laws.OwnRowBuildsIt.overrunKey_eq (p.extractLsb' 0 1) b
    rw [overrunPbc_eq p overrun] at key
    exact ⟨rfl, congrArg OpKey.byte key⟩
  · subst inPayload
    have room : p ≤ 12#4 := by bv_omega
    exact ⟨decide_eq_true room, rfl⟩
  · obtain rfl : y = 0b11#2 := by bv_omega
    exact ⟨rfl, rfl⟩

/-- Every HALF key is MID and ALLV. -/
theorem halfKey_split (k : BitVec 2) : k = k.extractLsb' 1 1 ++ k.extractLsb' 0 1 := by
  revert k; decide

theorem halfOperation_hasKey (m v : BitVec 1) :
    (if v = 0#1 then Instr.hfDiscard m else if m = 1#1 then .hfCommit1 else .hfCommit0).HasKey (.half (m ++ v)) := by
  split_ifs with discard second
  · subst discard
    exact ⟨rfl, rfl⟩
  · obtain rfl : v = 1#1 := by bv_omega
    subst second
    exact ⟨rfl, rfl⟩
  · obtain rfl : v = 1#1 := by bv_omega
    obtain rfl : m = 0#1 := by bv_omega
    exact ⟨rfl, rfl⟩

/-- The key that a read row's encoding writes for an address of the row's range is the address below the read bit. -/
theorem readKey_of_range (a : RegAddr) :
    (0x1E#8 ≤ a ∧ a ≤ 0x1F#8 → 0b00001111#8 ++ a.extractLsb' 0 1 = 0#1 ++ a)
    ∧ (0x2E#8 ≤ a ∧ a ≤ 0x2F#8 → 0b00010111#8 ++ a.extractLsb' 0 1 = 0#1 ++ a)
    ∧ (0x5C#8 ≤ a ∧ a ≤ 0x5F#8 → 0b0010111#7 ++ a.extractLsb' 0 2 = 0#1 ++ a)
    ∧ (0x10#8 ≤ a ∧ a ≤ 0x1F#8 → 0b00001#5 ++ a.extractLsb' 0 4 = 0#1 ++ a)
    ∧ (0x20#8 ≤ a ∧ a ≤ 0x2F#8 → 0b00010#5 ++ a.extractLsb' 0 4 = 0#1 ++ a)
    ∧ (0x40#8 ≤ a ∧ a ≤ 0x5F#8 ∧ a.extractLsb' 0 1 = 0#1 → 0b0010#4 ++ a.extractLsb' 1 4 ++ 0b0#1 = 0#1 ++ a)
    ∧ (0x40#8 ≤ a ∧ a ≤ 0x5F#8 ∧ a.extractLsb' 0 1 = 1#1 → 0b0010#4 ++ a.extractLsb' 1 4 ++ 0b1#1 = 0#1 ++ a) := by
  revert a; decide

theorem readOperation_hasKey (a : RegAddr) : (readOperation a).HasKey (.reg (0#1 ++ a) 0#32) := by
  obtain ⟨key1E, key2E, key5C, keyRaw, keyOfs, keyLo, keyHi⟩ := readKey_of_range a
  obtain ⟨rawChannel, ofsChannel, loChannel, hiChannel, parity⟩ := Machine.channelFields a
  have reg {k : BitVec 9} (key : k = 0#1 ++ a) : OpKey.reg k 0#32 = .reg (0#1 ++ a) 0#32 := by rw [key]
  have wf (c : BitVec 4) (h : c.toNat ≤ 13) : decide (c ≤ 13#4) = true := decide_eq_true h
  unfold readOperation
  split_ifs with status end1E end2E end5C raw ofs lo hi
  · subst status
    exact ⟨rfl, rfl⟩
  · exact ⟨rfl, reg (key1E end1E)⟩
  · exact ⟨rfl, reg (key2E end2E)⟩
  · exact ⟨rfl, reg (key5C end5C)⟩
  · exact ⟨wf _ (by rw [rawChannel raw]; bv_omega), reg (keyRaw raw)⟩
  · exact ⟨wf _ (by rw [ofsChannel ofs]; bv_omega), reg (keyOfs ofs)⟩
  · exact ⟨wf _ (by rw [(loChannel lo).1]; bv_omega), reg (keyLo lo)⟩
  · exact ⟨wf _ (by rw [(hiChannel hi).1]; bv_omega), reg (keyHi hi)⟩
  · have notNorm : ¬(0x40#8 ≤ a ∧ a ≤ 0x5F#8) := by
      rintro ⟨above, below⟩
      rcases parity with even | odd
      · exact lo ⟨above, below, even⟩
      · exact hi ⟨above, below, odd⟩
    have free : Instr.readTaken a = false := by
      simp only [Instr.readTaken, Bool.or_eq_false_iff, beq_eq_false_iff_ne, ← Bool.decide_and, decide_eq_false_iff_not]
      refine ⟨⟨status, ?_⟩, notNorm⟩
      bv_omega
    exact ⟨by simp [Instr.wf, free], rfl⟩

theorem writeOperation_hasKey (a : RegAddr) (d : RegWord) :
    (if a = 0x01#8 then Instr.wrControl d else .wrIgnored a d).HasKey (.reg (1#1 ++ a) d) := by
  split_ifs with control
  · subst control
    exact ⟨rfl, rfl⟩
  · exact ⟨by simpa [Instr.wf] using control, rfl⟩

/-- Bit 8 of a REG key is its write bit. -/
theorem regKey_writeBit (write : BitVec 1) (a : RegAddr) : (write ++ a).getLsbD 8 = decide (write = 1#1) := by
  revert write a; decide

theorem regKey_address (write : BitVec 1) (a : RegAddr) : (write ++ a).extractLsb' 0 8 = a := by
  rw [BitVec.extractLsb'_append_eq_of_add_le (by omega)]
  simp

/-- Settles O2. -/
theorem encodeOfDecodeIsTheKey : Obligations.EncodeOfDecodeIsTheKey := by
  intro k i decoded
  cases k with
  | byte k =>
    rw [byteKey_split k, decode_byte] at decoded
    obtain rfl := Except.ok.inj decoded
    have key := byteOperation_hasKey (k.extractLsb' 12 2) (k.extractLsb' 8 4) (k.extractLsb' 0 8)
    rwa [← byteKey_split k] at key
  | word w =>
    rw [decode_word] at decoded
    obtain rfl := Except.ok.inj decoded
    exact ⟨rfl, rfl⟩
  | half k =>
    rw [halfKey_split k, decode_half] at decoded
    obtain rfl := Except.ok.inj decoded
    have key := halfOperation_hasKey (k.extractLsb' 1 1) (k.extractLsb' 0 1)
    rwa [← halfKey_split k] at key
  | reg k d =>
    obtain ⟨write, a, rfl⟩ : ∃ (write : BitVec 1) (a : RegAddr), k = write ++ a := ⟨_, _, regKey_split k⟩
    obtain rfl | rfl : write = 0#1 ∨ write = 1#1 := by bv_omega
    · rw [decode_read] at decoded
      obtain rfl := Except.ok.inj decoded
      dsimp only
      rw [regKey_writeBit]
      exact readOperation_hasKey a
    · rw [decode_write] at decoded
      obtain rfl := Except.ok.inj decoded
      dsimp only
      rw [regKey_writeBit]
      exact writeOperation_hasKey a d
  | rst r =>
    obtain rfl | rfl : r = 0#1 ∨ r = 1#1 := by bv_omega
    · exact absurd decoded (by simp [decode, firstRow, rstRows, Row.fits])
    · obtain rfl := Except.ok.inj decoded
      exact ⟨rfl, rfl⟩

/-! ### The rows of a format -/

/-- Two rows ask for different values of a bit that both look at. -/
def Row.Apart {n : Nat} (a b : Row n) : Prop := (a.mask &&& b.mask) &&& (a.pattern ^^^ b.pattern) ≠ 0#n

theorem Row.Apart.not_both_fit {n : Nat} {a b : Row n} (apart : a.Apart b) (k : BitVec n) :
    ¬(a.fits k = true ∧ b.fits k = true) := by
  rintro ⟨fitsA, fitsB⟩
  refine apart ?_
  rw [← beq_iff_eq.mp fitsA, ← beq_iff_eq.mp fitsB]
  apply BitVec.eq_of_getLsbD_eq
  intro j _
  simp only [BitVec.getLsbD_and, BitVec.getLsbD_xor, BitVec.getLsbD_zero]
  cases a.mask.getLsbD j <;> cases b.mask.getLsbD j <;> simp

/-- What decodes fits a row. -/
theorem exists_fits_of_firstRow {n : Nat} {rows : List (Row n)} {k : BitVec n} {d : RegWord} {i : Instr}
    (h : firstRow rows k d = .ok i) : ∃ r ∈ rows, r.fits k = true := by
  unfold firstRow at h
  split at h
  · next r found => exact ⟨r, List.mem_of_find?_eq_some found, List.find?_some (p := fun r : Row n => r.fits k) found⟩
  · exact absurd h (by simp)

theorem disjoint_of_apart {n : Nat} {rows : List (Row n)}
    (h : rows.Pairwise (fun a b => a.priority = b.priority → a.Apart b)) (k : BitVec n) :
    rows.Pairwise (fun a b => a.priority = b.priority → ¬(a.fits k = true ∧ b.fits k = true)) :=
  h.imp fun apart same => (apart same).not_both_fit k

/-- Settles O3. -/
theorem rowsOfEqualPriorityAreDisjointAndCoverEveryKey : Obligations.RowsOfEqualPriorityAreDisjointAndCoverEveryKey := by
  have byteApart : byteRows.Pairwise (fun a b => a.priority = b.priority → a.Apart b) := by
    unfold Row.Apart; decide
  have halfApart : halfRows.Pairwise (fun a b => a.priority = b.priority → a.Apart b) := by
    unfold Row.Apart; decide
  have regApart : regRows.Pairwise (fun a b => a.priority = b.priority → a.Apart b) := by
    unfold Row.Apart; decide
  refine ⟨disjoint_of_apart byteApart, disjoint_of_apart halfApart, disjoint_of_apart regApart, fun k => ?_, fun w => ?_,
    fun k => ?_, fun k => ?_⟩
  · rw [byteKey_split k]
    exact exists_fits_of_firstRow (decode_byte _ _ _)
  · exact exists_fits_of_firstRow (decode_word w)
  · rw [halfKey_split k]
    exact exists_fits_of_firstRow (decode_half _ _)
  · obtain ⟨write, a, rfl⟩ : ∃ (write : BitVec 1) (a : RegAddr), k = write ++ a := ⟨_, _, regKey_split k⟩
    obtain rfl | rfl : write = 0#1 ∨ write = 1#1 := by bv_omega
    · exact exists_fits_of_firstRow (decode_read a 0#32)
    · exact exists_fits_of_firstRow (decode_write a 0#32)

/-- Settles O4: each key is its format's fields written one after another. -/
theorem writtenOutKeysDecode : Obligations.WrittenOutKeysDecode :=
  ⟨decode_byte 0b00#2 14#4 0x00#8, decode_byte 0b10#2 5#4 0x81#8, decode_byte 0b10#2 13#4 0xEF#8,
    decode_word 0x81EF#16, decode_half 1#1 1#1, decode_read 0x13#8 0#32, decode_read 0x5B#8 0#32,
    decode_write 0x01#8 3#32⟩

end Sys2Proof
end

section
/-! An operation placed by `withFetch` (log 11): its pins select its own key in the next step, and the step runs the key. -/

namespace Sys2Proof.Machine

/-- The key of a well-formed operation runs that operation. -/
theorem runKey_encode (i : Instr) (h : i.wf = true) (s : State) : runKey (encode i) s = exec i s := by
  unfold runKey
  rw [decode_encode i h]

theorem andThen_next_right (r : Result) : andThen r .next = r := by
  cases r <;> rfl

/-- A step that presents no byte is its register operation alone (43_host.md R213). -/
theorem step_of_regAccess {s : State} {k : OpKey} (noReset : s.nextPins.rst = false) (noByte : s.nextPins.inValid = false)
    (access : regAccess s.nextPins = some k) : step s = runKey k s.beginStep := by
  have byteStep : runByteStep s.nextPins = .next := by
    funext t
    simp [runByteStep, noByte]
  unfold step cycle
  rw [noReset, byteStep, andThen_next_right, runRegAccess, access]
  rfl

/-- A step that accepts a byte and has no register access is its byte operation alone. -/
theorem step_of_byte {s : State} {b : Byte} (pins : s.nextPins = bytePins b) (noHold : s.hold = false) :
    step s = runKey (.byte (s.byteKey b)) s.beginStep := by
  have ready : s.beginStep.inReady = true := by
    simp [pins, noHold, bytePins, idlePins]
  unfold step cycle
  rw [pins]
  show runByteStep (bytePins b) s.beginStep = _
  unfold runByteStep
  rw [ready]
  rfl

theorem step_withByteKey (s : State) (k : BitVec 14) :
    step (s.withByteKey k) = runKey (.byte k) (s.withByteKey k).beginStep := by
  have key : (s.withByteKey k).byteKey (k.extractLsb' 0 8) = k := (byteKey_split k).symm
  have run := step_of_byte (s := s.withByteKey k) (b := k.extractLsb' 0 8) rfl rfl
  rwa [key] at run

theorem step_withPins_write (s : State) (a : RegAddr) (d : RegWord) :
    step (s.withPins (writePins a d)) = runKey (.reg (1#1 ++ a) d) (s.withPins (writePins a d)).beginStep :=
  step_of_regAccess rfl rfl rfl

theorem step_withPins_read (s : State) (a : RegAddr) :
    step (s.withPins (readPins a)) = runKey (.reg (0#1 ++ a) 0#32) (s.withPins (readPins a)).beginStep :=
  step_of_regAccess rfl rfl rfl

theorem step_withPins_reset (s : State) :
    step (s.withPins resetPins) = runKey (.rst 1#1) (s.withPins resetPins).beginStep := rfl

/-- Settles O8: in each format the placed pins make the step run the operation's own key. -/
theorem placedOperationRunsInTheNextStep : Obligations.PlacedOperationRunsInTheNextStep := by
  intro i s wf
  have decoded := decode_encode i wf
  refine ⟨fun k key => ?_, fun k d key => ?_, fun key => ?_⟩
  · have placed : s.withFetch i = s.withByteKey k := by simp only [State.withFetch, key]
    rw [placed, step_withByteKey, ← key, runKey_encode i wf]
  · rw [← runKey_encode i wf, key]
    obtain ⟨write, a, rfl⟩ : ∃ (write : BitVec 1) (a : RegAddr), k = write ++ a := ⟨_, _, regKey_split k⟩
    obtain rfl | rfl : write = 0#1 ∨ write = 1#1 := by bv_omega
    · have noData : d = 0#32 := by
        rw [key] at decoded
        obtain ⟨-, own⟩ := encodeOfDecodeIsTheKey _ i decoded
        dsimp only at own
        rw [key, regKey_writeBit] at own
        exact (OpKey.reg.inj own).2
      have placed : s.withFetch i = s.withPins (readPins a) := by
        simp only [State.withFetch, key, regKey_writeBit, regKey_address]
        rfl
      rw [placed, noData, step_withPins_read]
    · have placed : s.withFetch i = s.withPins (writePins a d) := by
        simp only [State.withFetch, key, regKey_writeBit, regKey_address]
        rfl
      rw [placed, step_withPins_write]
  · have placed : s.withFetch i = s.withPins resetPins := by simp only [State.withFetch, key]
    rw [placed, step_withPins_reset, ← key, runKey_encode i wf]

end Sys2Proof.Machine
end

section
/-! The words of a payload (30_encoding.md R82 to R85, R93). -/

namespace Sys2Proof.Machine

/-- Settles O24: the lane's validity is that of the entry read by division, and PW is twice RAW. -/
theorem wordIsValidByRawBounds : Obligations.WordIsValidByRawBounds := by
  intro w
  have valid : (laneDecode w).valid = entryValid (entryOf w.toNat) := by
    rw [entryOf_toNat]
    rfl
  rw [valid]
  simp only [entryValid, Bool.and_eq_true, decide_eq_true_iff]
  simp only [entryOf]
  omega

end Sys2Proof.Machine
end

section
/-! A frame from Idle (30_encoding.md R80, R81, 40_sync.md R119): the run of a list of pins step by step, the two sync bytes, the
appends up to PBC 13 and the last byte. -/

namespace Sys2Proof.Machine

/-! ### Runs -/

/-- A run whose first step answers a next state goes on from there. -/
theorem run_succ_of_step {M : Host.Core} {s t : M.State} (h : M.step s = .next t) (k : Nat) :
    M.run (k + 1) s = M.run k t := by
  simp only [Host.Core.run, h]

theorem runPins_nil (s : State) : runPins [] s = .next (s.setInputs []) := rfl

@[simp] theorem regAfter_inputs (p : Pins) (s : State) : (regAfter p s).inputs = s.inputs := by rw [regAfter_eq]

@[simp] theorem byteAfter_inputs (b : Byte) (s : State) : (byteAfter b s).inputs = s.inputs := by
  by_cases last : s.sync = syncInPayload ∧ s.pbc = 13#4
  · obtain ⟨inPayload, at13⟩ := last
    obtain ⟨-, frame⟩ := byteAfter_last_spec b s inPayload at13
    rw [frame]
  · rw [byteAfter_eq_of_not_last b s last]

/-- A step takes the first of the coming pins. -/
@[simp] theorem stepAfter_inputs (s : State) : (stepAfter s).inputs = s.inputs.tail := by
  rcases step_kinds s with reset | ⟨noReset, accepted⟩ | ⟨noReset, refused⟩
  · rw [stepAfter_of_reset s reset]
  · rw [stepAfter_of_accepts s noReset accepted, byteAfter_inputs, regAfter_inputs, beginStep_eq]
  · rw [stepAfter_of_no_byte s noReset refused, regAfter_inputs, beginStep_eq]

/-- A run is its first step and the run from there. -/
theorem runPins_cons (p : Pins) (ps : List Pins) (s : State) :
    runPins (p :: ps) s = runPins ps (stepAfter (s.setInputs (p :: ps))) := by
  have taken (t : State) (left : t.inputs = ps) : t.setInputs ps = t := by
    subst left
    rfl
  have first : Sys2Proof.core.step (s.setInputs (p :: ps)) = .next (stepAfter (s.setInputs (p :: ps))) :=
    step_next _
  unfold runPins
  rw [taken _ (stepAfter_inputs _)]
  exact run_succ_of_step first ps.length

/-- The state in which a byte is accepted: the coming pins are ps, in_ready shows 1. -/
def State.presented (s : State) (ps : List Pins) : State :=
  ((s.setInputs ps).setInReady true).setRegRdata 0#32

/-- A byte presented with HOLD = 0 runs its byte operation. -/
theorem runPins_bytePins (b : Byte) (ps : List Pins) (s : State) (noHold : s.hold = false) :
    runPins (bytePins b :: ps) s = runPins ps (byteAfter b (s.presented ps)) := by
  have accepted : (s.setInputs (bytePins b :: ps)).accepts (bytePins b) = true := by
    simp [State.accepts, acceptsByte, bytePins, idlePins, noHold]
  have begun : (s.setInputs (bytePins b :: ps)).beginStep = s.presented ps := by
    simp [State.presented, State.setInputs, State.setInReady, State.setRegRdata, State.nextPins, bytePins, idlePins, noHold]
  rw [runPins_cons, stepAfter_of_accepts _ rfl accepted, begun]
  rfl

/-! ### The bytes of a frame -/

section
variable {s t : State} {p : Payload} {n : Nat}

/-- From s the block has taken in the first n bytes of payload p: it is InPayload with PBC = n and those bytes in PBUF, the latest
step accepted its byte and read no register, and the rest is as in s. -/
def State.Received (s : State) (p : Payload) (n : Nat) (t : State) : Prop :=
  t = { s with
      sync := syncInPayload, pbc := BitVec.ofNat 4 n, pbuf := t.pbuf
      inReady := true, regRdata := 0#32, inputs := t.inputs }
  ∧ ∀ j, j < n → payloadByte t.pbuf j = payloadByte p j

/-- The state u after the last byte of payload p, in terms of the state s before the frame. -/
def State.FrameDecoded (s : State) (p : Payload) (u : State) : Prop :=
  u.sync = syncIdle ∧ u.pbc = 14#4 ∧ u.pbuf = p ∧ u.inReady = true ∧ HalfFrameEffect s u p

theorem State.Received.presented (h : s.Received p n t) (ps : List Pins) : s.Received p n (t.presented ps) := by
  obtain ⟨frame, bytes⟩ := h
  refine ⟨?_, bytes⟩
  rw [frame]
  rfl

/-- The two sync bytes (40_sync.md R111, R113). -/
theorem received_of_syncBytes (idle : s.sync = syncIdle) (ps qs : List Pins) :
    s.Received p 0 (byteAfter 0x00#8 ((byteAfter 0x00#8 (s.presented ps)).presented qs)) := by
  have first : byteAfter 0x00#8 (s.presented ps) = ((s.presented ps).setSync syncGotFirst).setPbc 0#4 :=
    byteAfter_idle 0x00#8 (s.presented ps) idle
  have second := byteAfter_gotFirst 0x00#8 ((((s.presented ps).setSync syncGotFirst).setPbc 0#4).presented qs) rfl
  rw [first, second, if_pos rfl]
  exact ⟨rfl, fun j hj => absurd hj (by omega)⟩

/-- The next byte of p, written at the count, makes the bytes up to it those of p. -/
theorem State.Received.writePayload_bytes (h : s.Received p n t) (room : n < 14) (j : Nat) (hj : j < n + 1) :
    payloadByte (t.writePayload n (payloadByte p n)).pbuf j = payloadByte p j := by
  obtain ⟨-, bytes⟩ := h
  rw [payloadByte_writePayload]
  by_cases here : n = j
  · subst here
    rw [if_pos ⟨rfl, room⟩]
  · rw [if_neg fun ⟨same, _⟩ => here same, bytes j (by omega)]

/-- One of the first 13 payload bytes (R115). -/
theorem State.Received.append (h : s.Received p n t) (room : n < 13) :
    s.Received p (n + 1) (byteAfter (payloadByte p n) t) := by
  have bytes := h.writePayload_bytes (by omega)
  obtain ⟨frame, -⟩ := h
  have pbc : t.pbc = BitVec.ofNat 4 n := by rw [frame]
  have count : t.pbc.toNat = n := by
    rw [pbc, BitVec.toNat_ofNat]
    omega
  have run := byteAfter_append (payloadByte p n) t (by rw [frame]) (by omega)
  have next : BitVec.ofNat 4 n + 1#4 = BitVec.ofNat 4 (n + 1) := by rw [BitVec.ofNat_add]
  rw [count, pbc, next] at run
  rw [run]
  refine ⟨?_, bytes⟩
  conv_lhs => rw [frame]
  rfl

/-- The bytes of a frame before its last leave the store, the count, the flags and the parameter alone, so the half-frame acts on
the state before the frame. -/
theorem State.Received.halfFrameEffect {u : State} (h : s.Received p n t) (effect : HalfFrameEffect t u p) :
    HalfFrameEffect s u p := by
  obtain ⟨frame, -⟩ := h
  rw [frame] at effect
  unfold HalfFrameEffect at effect ⊢
  cases kind : halfKind p <;> rw [kind] at effect <;> exact effect

/-- The payload's last byte: its decode, and Idle again (R116). -/
theorem State.Received.last (h : s.Received p 13 t) : s.FrameDecoded p (byteAfter (payloadByte p 13) t) := by
  have whole : t.pbuf.set 13 (payloadByte p 13) = p := by
    rw [← writePayload_last]
    exact payload_ext (h.writePayload_bytes (by omega))
  have frame := h.1
  obtain ⟨effect, result⟩ := byteAfter_last_spec (payloadByte p 13) t (by rw [frame]) (by rw [frame])
  rw [whole] at effect result
  have ready : t.inReady = true := by rw [frame]
  have onFrame := h.halfFrameEffect effect
  rw [result] at onFrame ⊢
  exact ⟨rfl, rfl, rfl, ready, onFrame⟩

end

/-- The bytes of a payload from the n-th on, one a step. -/
def payloadPinsFrom (p : Payload) (n : Nat) : List Pins := (p.toList.drop n).map bytePins

theorem payloadPinsFrom_of_lt (p : Payload) (n : Nat) (h : n < 14) :
    payloadPinsFrom p n = bytePins (payloadByte p n) :: payloadPinsFrom p (n + 1) := by
  have room : n < p.toList.length := by simpa using h
  unfold payloadPinsFrom
  rw [List.drop_eq_getElem_cons room]
  simp [payloadByte, h]

theorem payloadPinsFrom_end (p : Payload) : payloadPinsFrom p 14 = [] := by
  simp [payloadPinsFrom]

/-- The next byte of the payload is accepted: nothing has set HOLD. -/
theorem State.Received.run_byte {s t : State} {p : Payload} {n : Nat} (noHold : s.hold = false) (h : s.Received p n t)
    (room : n < 14) : runPins (payloadPinsFrom p n) t
      = runPins (payloadPinsFrom p (n + 1)) (byteAfter (payloadByte p n) (t.presented (payloadPinsFrom p (n + 1)))) := by
  obtain ⟨frame, -⟩ := h
  have hold : t.hold = false := by rw [frame, noHold]
  rw [payloadPinsFrom_of_lt p n room, runPins_bytePins _ _ t hold]

/-- From n received bytes on, the rest of the payload comes in and is decoded once: induction on the number of bytes left before the
last. -/
theorem State.Received.run_rest {s t : State} {p : Payload} {n : Nat} (noHold : s.hold = false) (left : Nat)
    (h : s.Received p n t) (count : n + left = 13) : ∃ u, runPins (payloadPinsFrom p n) t = .next u ∧ s.FrameDecoded p u := by
  induction left generalizing n t with
  | zero =>
    obtain rfl : n = 13 := count
    rw [h.run_byte noHold (by omega), payloadPinsFrom_end, runPins_nil]
    exact ⟨_, rfl, (h.presented []).last⟩
  | succ left ih =>
    rw [h.run_byte noHold (by omega)]
    exact ih ((h.presented _).append (by omega)) (by omega)

/-- Settles O32: the two sync bytes, and the payload from its first byte on. -/
theorem wholeFrameIsDecodedOnce : Obligations.WholeFrameIsDecodedOnce := by
  intro s p idle noHold
  have frame : framePins p = bytePins 0x00#8 :: bytePins 0x00#8 :: payloadPinsFrom p 0 := rfl
  have first := byteAfter_idle 0x00#8 (s.presented (bytePins 0x00#8 :: payloadPinsFrom p 0)) idle
  rw [frame, runPins_bytePins _ _ s noHold, runPins_bytePins _ _ _ (by rw [first]; exact noHold)]
  exact (received_of_syncBytes idle _ _).run_rest noHold 13 rfl

end Sys2Proof.Machine
end

section
/-! Steps that ask nothing of the block do not matter (40_sync.md R121, 43_host.md R221). What a step does to the block's own state
is decided by that state and the step's pins: the outputs of the step before, and the pins still to come, are read by no operation. -/

namespace Sys2Proof.Machine

/-! ### The operations on the block's own state -/

theorem foldl_storeLane_own (ls : List Lane) (s : State) :
    (ls.foldl State.storeLane s).own = ls.foldl State.storeLane s.own :=
  (List.foldl_hom State.own fun _ _ => rfl).symm

theorem State.storeLanes_own (s : State) : s.storeLanes.own = s.own.storeLanes := foldl_storeLane_own s.lanes s

theorem State.completeAt14_own (s : State) : s.completeAt14.own = s.own.completeAt14 :=
  apply_ite State.own (s.cuc = Config.completeCount) s.completionEvent s

theorem State.commitFirst_own (s : State) : s.commitFirst.own = s.own.commitFirst := by
  have emptied : (if s.id0Policy = .replace then s.emptyStore else s).own
      = if s.own.id0Policy = .replace then s.own.emptyStore else s.own := apply_ite State.own _ _ _
  have stored := State.storeLanes_own (if s.id0Policy = .replace then s.emptyStore else s)
  rw [emptied] at stored
  exact congrArg (fun t => (t.setCuc 7#5).setLanes []) stored

theorem State.commitSecond_own (s : State) : s.commitSecond.own = s.own.commitSecond := by
  have stored := congrArg (fun t => t.setCuc (satAdd7 t.cuc)) s.storeLanes_own
  have completed := State.completeAt14_own (s.storeLanes.setCuc (satAdd7 s.storeLanes.cuc))
  exact congrArg (fun t => t.setLanes []) (completed.trans (congrArg State.completeAt14 stored))

theorem State.commitHalf_own (s : State) (mid : Bool) : (s.commitHalf mid).own = s.own.commitHalf mid := by
  unfold State.commitHalf
  rw [apply_ite State.own, apply_ite State.own, s.commitFirst_own, s.commitSecond_own]
  rfl

theorem State.decodePayload_own (s : State) : s.decodePayload.own = s.own.decodePayload := by
  rw [decodePayload_eq, decodePayload_eq, State.commitHalf_own]
  rfl

/-- A byte operation reads and writes the block's own state alone. -/
theorem byteAfter_own (b : Byte) (s : State) : (byteAfter b s).own = byteAfter b s.own := by
  rcases sync_cases s.sync with idle | gotFirst | inPayload | illegal
  · rw [byteAfter_idle b s idle, byteAfter_idle b s.own idle, apply_ite State.own]
    rfl
  · rw [byteAfter_gotFirst b s gotFirst, byteAfter_gotFirst b s.own gotFirst, apply_ite State.own]
    rfl
  · rcases pbc_cases s.pbc with room | last | overrun
    · rw [byteAfter_append b s inPayload room, byteAfter_append b s.own inPayload room]
      rfl
    · rw [byteAfter_last b s inPayload last, byteAfter_last b s.own inPayload last]
      have decoded := State.decodePayload_own ((s.writePayload 13 b).setPbc 14#4)
      exact congrArg (fun t => t.setSync syncIdle) decoded
    · rw [byteAfter_overrun b s inPayload overrun, byteAfter_overrun b s.own inPayload overrun]
      rfl
  · rw [byteAfter_illegal b s illegal, byteAfter_illegal b s.own illegal]
    rfl

/-- A register operation's effect on the block's own state is decided by that state. -/
theorem regAfter_own (p : Pins) (s : State) : (regAfter p s).own = (regAfter p s.own).own := by
  unfold regAfter
  rw [control_eq, control_eq]
  split_ifs <;> rfl

/-! ### Steps and runs -/

section
variable {s t : State}

theorem regAfter_own_congr (p : Pins) (same : s.own = t.own) : (regAfter p s).own = (regAfter p t).own := by
  rw [regAfter_own p s, regAfter_own p t, same]

theorem byteAfter_own_congr (b : Byte) (same : s.own = t.own) : (byteAfter b s).own = (byteAfter b t).own := by
  rw [byteAfter_own, byteAfter_own, same]

/-- Two blocks with the same own state and the same pins in a step take the same kind of step, to the same own state. -/
theorem stepAfter_own_congr (same : s.own = t.own) (pins : s.nextPins = t.nextPins) :
    (stepAfter s).own = (stepAfter t).own := by
  have policy : s.id0Policy = t.id0Policy := (congrArg State.id0Policy same :)
  have hold : s.hold = t.hold := (congrArg State.hold same :)
  have accepts : s.accepts s.nextPins = t.accepts t.nextPins := by
    simp only [State.accepts, acceptsByte, hold, pins]
  have registers : (regAfter s.nextPins s.beginStep).own = (regAfter t.nextPins t.beginStep).own := by
    rw [pins]
    exact regAfter_own_congr _ same
  rcases step_kinds s with reset | ⟨noReset, accepted⟩ | ⟨noReset, refused⟩
  · rw [stepAfter_of_reset s reset, stepAfter_of_reset t (pins ▸ reset), policy]
    rfl
  · rw [stepAfter_of_accepts s noReset accepted, stepAfter_of_accepts t (pins ▸ noReset) (accepts ▸ accepted), pins]
    exact byteAfter_own_congr _ (pins ▸ registers)
  · rw [stepAfter_of_no_byte s noReset refused, stepAfter_of_no_byte t (pins ▸ noReset) (accepts ▸ refused)]
    exact registers

end

/-- A run and the run without its steps that ask nothing, from states that are the same but for the outputs of the step before. -/
theorem runPins_filter_own (ps : List Pins) {s s' : State} (same : s.own = s'.own) :
    ∃ t u, runPins ps s = .next t ∧ runPins (ps.filter (fun p => !p.asksNothing)) s' = .next u ∧ t.own = u.own := by
  induction ps generalizing s s' with
  | nil => exact ⟨_, _, runPins_nil s, runPins_nil s', same⟩
  | cons p ps ih =>
    rw [runPins_cons]
    cases asks : p.asksNothing with
    | true =>
      have kept : (stepAfter (s.setInputs (p :: ps))).own = s.own := stepAfter_own_of_asksNothing asks
      rw [List.filter_cons_of_neg (by simp [asks])]
      exact ih (kept.trans same)
    | false =>
      rw [List.filter_cons_of_pos (by simp [asks]), runPins_cons]
      exact ih (stepAfter_own_congr same rfl)

/-- Settles O56. -/
theorem idleStepsBetweenBytesDoNotMatter : Obligations.IdleStepsBetweenBytesDoNotMatter :=
  fun ps _ => runPins_filter_own ps rfl

end Sys2Proof.Machine
end

section
/-! The byte operations (40_sync.md R111 to R118). Every BYTE key decodes by its three fields, so a row's match and mask are read
field by field, and the key of a state selects the operation of that state's SYNC and PBC. -/

namespace Sys2Proof

/-! ### The keys of the rows -/

/-- The operation of a BYTE key by the key's own fields. -/
theorem decode_byte_split (k : BitVec 14) :
    decode (.byte k) = .ok (byteOperation (k.extractLsb' 12 2) (k.extractLsb' 8 4) (k.extractLsb' 0 8)) :=
  decode_byte_of_fields (byteKey_split k) rfl

/-- A row's match and mask, as conditions on the fields of any key. -/
theorem byteKey_masked_iff (k : BitVec 14) (my py : BitVec 2) (mp pp : BitVec 4) (mb pb : Byte) :
    k &&& (my ++ mp ++ mb) = py ++ pp ++ pb ↔
      k.extractLsb' 12 2 &&& my = py ∧ k.extractLsb' 8 4 &&& mp = pp ∧ k.extractLsb' 0 8 &&& mb = pb := by
  conv_lhs => rw [byteKey_split k]
  exact byteKey_fits ..

/-- A mask of ones asks for the whole field. -/
theorem sync_masked (y : BitVec 2) : y &&& 0b11#2 = y := BitVec.and_allOnes

theorem pbc_masked (p : BitVec 4) : p &&& 15#4 = p := BitVec.and_allOnes

/-- PBC's three high bits are ones from 14 on. -/
theorem pbc_masked_overrun (p : BitVec 4) (h : p &&& 14#4 = 14#4) : 14#4 ≤ p := by
  revert p; decide

/-- The rows that look at SYNC alone. -/
theorem byteKey_sync_of_masked {k : BitVec 14} {y : BitVec 2} (fits : k &&& 0x3000#14 = y ++ 0#4 ++ 0x00#8) :
    k.extractLsb' 12 2 = y := by
  obtain ⟨sync, -, -⟩ := (byteKey_masked_iff k 0b11#2 y 0#4 0#4 0x00#8 0x00#8).mp fits
  rwa [sync_masked] at sync

/-- The rows that look at SYNC and ask for the byte 0x00. -/
theorem byteKey_sync_zero_of_masked {k : BitVec 14} {y : BitVec 2} (fits : k &&& 0x30FF#14 = y ++ 0#4 ++ 0x00#8) :
    k.extractLsb' 12 2 = y ∧ k.extractLsb' 0 8 = 0x00#8 := by
  obtain ⟨sync, -, byte⟩ := (byteKey_masked_iff k 0b11#2 y 0#4 0#4 0xFF#8 0x00#8).mp fits
  rw [sync_masked] at sync
  exact ⟨sync, (and_allOnes8 _).mp byte⟩

theorem byteOperation_idleSkip (p : BitVec 4) {b : Byte} (nonzero : b ≠ 0x00#8) :
    byteOperation 0b00#2 p b = .byteIdleSkip p b := by
  simp [byteOperation, nonzero]

theorem byteOperation_syncFail (p : BitVec 4) {b : Byte} (nonzero : b ≠ 0x00#8) :
    byteOperation 0b01#2 p b = .byteSyncFail p b := by
  simp [byteOperation, nonzero]

theorem byteOperation_overrun_of_le (p : BitVec 4) (b : Byte) (h : 14#4 ≤ p) :
    byteOperation 0b10#2 p b = .bytePayloadOverrun (p.extractLsb' 0 1) b := by
  conv_lhs => rw [← overrunPbc_eq p h]
  exact byteOperation_overrun _ b

/-- Only a PBC of 14 or more while InPayload selects BYTE_PAYLOAD_OVERRUN. -/
theorem byteOperation_eq_overrun {y : BitVec 2} {p : BitVec 4} {b b' : Byte} {q : BitVec 1}
    (h : byteOperation y p b = .bytePayloadOverrun q b') : y = 0b10#2 ∧ 14#4 ≤ p := by
  unfold byteOperation at h
  split_ifs at h with _ _ _ _ inPayload _ overrun
  exact ⟨inPayload, overrun⟩

/-- Only the illegal code selects BYTE_ILLEGAL_STATE. -/
theorem byteOperation_eq_illegal {y : BitVec 2} {p q : BitVec 4} {b b' : Byte}
    (h : byteOperation y p b = .byteIllegalState q b') : y = 0b11#2 := by
  unfold byteOperation at h
  split_ifs at h with idle _ gotFirst _ inPayload
  bv_omega

end Sys2Proof

namespace Sys2Proof.Machine

/-- The operation that a byte selects in a state. -/
theorem decode_byteKey (s : State) (b : Byte) : decode (.byte (s.byteKey b)) = .ok (byteOperation s.sync s.pbc b) :=
  decode_byte s.sync s.pbc b

/-! ### Outside InPayload -/

/-- Settles O14. -/
theorem byteIdleSync1StartsTheMarker : Obligations.ByteIdleSync1StartsTheMarker := by
  refine ⟨fun k fits => ?_, fun s idle => ?_, fun _ _ => rfl⟩
  · obtain ⟨sync, zero⟩ := byteKey_sync_zero_of_masked (y := 0b00#2) fits
    rw [decode_byte_split, sync, zero]
    rfl
  · rw [decode_byteKey, idle]
    rfl

/-- Settles O15. -/
theorem byteIdleSkipChangesNothing : Obligations.ByteIdleSkipChangesNothing := by
  refine ⟨fun k fits nonzero => ?_, fun s b idle nonzero => ?_, fun _ _ _ => rfl⟩
  · rw [decode_byte_split, byteKey_sync_of_masked (y := 0b00#2) fits, byteOperation_idleSkip _ nonzero]
  · rw [decode_byteKey, idle, byteOperation_idleSkip _ nonzero]

/-- Settles O16. -/
theorem byteSync2OpensAClearedPayload : Obligations.ByteSync2OpensAClearedPayload := by
  refine ⟨fun k fits => ?_, fun s gotFirst => ?_, fun _ _ => rfl⟩
  · obtain ⟨sync, zero⟩ := byteKey_sync_zero_of_masked (y := 0b01#2) fits
    rw [decode_byte_split, sync, zero]
    rfl
  · rw [decode_byteKey, gotFirst]
    rfl

/-- Settles O17. -/
theorem byteSyncFailReturnsToIdle : Obligations.ByteSyncFailReturnsToIdle := by
  refine ⟨fun k fits nonzero => ?_, fun s b gotFirst nonzero => ?_, fun _ _ _ => rfl⟩
  · rw [decode_byte_split, byteKey_sync_of_masked (y := 0b01#2) fits, byteOperation_syncFail _ nonzero]
  · rw [decode_byteKey, gotFirst, byteOperation_syncFail _ nonzero]

/-- Settles O18: BYTE_SYNC_FAIL leaves the block Idle, where a non-zero byte selects BYTE_IDLE_SKIP. -/
theorem rejectedByteExaminedAgainWouldChangeNothing : Obligations.RejectedByteExaminedAgainWouldChangeNothing := by
  intro s t u b i j gotFirst nonzero decoded run decodedAgain runAgain
  obtain ⟨-, selectsFail, execFail⟩ := byteSyncFailReturnsToIdle
  obtain ⟨-, selectsSkip, execSkip⟩ := byteIdleSkipChangesNothing
  obtain rfl := Except.ok.inj ((selectsFail s b gotFirst nonzero).symm.trans decoded)
  obtain rfl := Host.Outcome.next.inj ((execFail s.pbc b s).symm.trans run)
  obtain rfl := Except.ok.inj ((selectsSkip _ b rfl nonzero).symm.trans decodedAgain)
  exact Host.Outcome.next.inj (runAgain.symm.trans (execSkip _ b _))

/-! ### InPayload -/

/-- Settles O19. -/
theorem bytePayloadAppendStoresAtTheCount : Obligations.BytePayloadAppendStoresAtTheCount := by
  refine ⟨fun k fits room => ?_, fun s b inPayload room => ?_, fun b s inPayload room => ?_⟩
  · rw [decode_byte_split, byteKey_sync_of_masked (y := 0b10#2) fits, byteOperation_append _ _ room]
  · rw [decode_byteKey, inPayload, byteOperation_append _ _ room]
  · refine ⟨(s.writePayload s.pbc.toNat b).setPbc (s.pbc + 1#4), rfl, fun j hj => ?_, ?_, inPayload, rfl⟩
    · simp only [State.setPbc_pbuf, State.writePayload, State.setPbuf_pbuf, Vector.getElem_setIfInBounds, eq_comm (a := j)]
    · rw [State.setPbc_pbc]
      bv_omega

/-- BYTE_PAYLOAD_LAST in any state, whatever SYNC and PBC are: the payload that the byte completes is decoded, the synchronizer is
Idle with PBC = 14, and no lane remains. -/
theorem execBytePayloadLast_spec (b : Byte) (s : State) :
    ∃ t, exec (.bytePayloadLast b) s = .next t
      ∧ HalfFrameEffect s t (s.pbuf.set 13 b)
      ∧ t = { s with
          sync := syncIdle, pbc := 14#4, pbuf := s.pbuf.set 13 b, chPop := t.chPop, chPw := t.chPw, cuc := t.cuc
          frameReady := t.frameReady, hold := t.hold, lanes := [] } := by
  obtain ⟨effect, frame⟩ := decodePayload_spec ((s.writePayload 13 b).setPbc 14#4)
  have buffer : ((s.writePayload 13 b).setPbc 14#4).pbuf = s.pbuf.set 13 b := writePayload_last s b
  rw [buffer] at effect
  refine ⟨_, rfl, effect.of_synchronizer_writes, ?_⟩
  rw [frame, ← writePayload_last s b]
  rfl

/-- Settles O20. -/
theorem bytePayloadLastDecodesAndReturnsToIdle : Obligations.BytePayloadLastDecodesAndReturnsToIdle := by
  refine ⟨fun k fits => ?_, fun s b inPayload at13 => ?_, fun b s => ?_⟩
  · obtain ⟨sync, at13, -⟩ := (byteKey_masked_iff k 0b11#2 0b10#2 15#4 13#4 0x00#8 0x00#8).mp fits
    rw [sync_masked] at sync
    rw [pbc_masked] at at13
    rw [decode_byte_split, sync, at13]
    rfl
  · rw [decode_byteKey, inPayload, at13]
    rfl
  · obtain ⟨t, run, effect, frame⟩ := execBytePayloadLast_spec b s
    refine ⟨t, run, ?_, ?_, ?_, effect, ?_, ?_⟩ <;> rw [frame]

/-- Settles O21: R35(b) keeps PBC at 13 or less while InPayload. -/
theorem bytePayloadOverrunFallsBackToIdle : Obligations.BytePayloadOverrunFallsBackToIdle := by
  refine ⟨fun k fits => ?_, fun s b inPayload beyond => ?_, fun _ _ _ => rfl, fun s b b' p inv selected => ?_⟩
  · obtain ⟨sync, beyond, -⟩ := (byteKey_masked_iff k 0b11#2 0b10#2 14#4 14#4 0x00#8 0x00#8).mp fits
    rw [sync_masked] at sync
    have bit : (k.extractLsb' 8 4).extractLsb' 0 1 = k.extractLsb' 8 1 := by
      conv_rhs => rw [byteKey_split k, byteKey_pbcBit]
    rw [decode_byte_split, sync, byteOperation_overrun_of_le _ _ (pbc_masked_overrun _ beyond), bit]
  · rw [decode_byteKey, inPayload, byteOperation_overrun_of_le _ _ beyond]
  · rw [decode_byteKey] at selected
    obtain ⟨inPayload, beyond⟩ := byteOperation_eq_overrun (Except.ok.inj selected)
    obtain ⟨⟨-, -, atMost13, -⟩, -⟩ := s.inv_iff.mp inv
    have below := atMost13 inPayload
    bv_omega

/-! ### The illegal code -/

/-- Settles O22: R35(a) keeps SYNC off 0b11. -/
theorem byteIllegalStateFallsBackToIdle : Obligations.ByteIllegalStateFallsBackToIdle := by
  refine ⟨fun k fits => ?_, fun s b illegal => ?_, fun _ _ _ => rfl, fun s b b' p inv selected => ?_⟩
  · rw [decode_byte_split, byteKey_sync_of_masked (y := 0b11#2) fits]
    rfl
  · rw [decode_byteKey, illegal]
    rfl
  · rw [decode_byteKey] at selected
    obtain ⟨⟨legal, -⟩, -⟩ := s.inv_iff.mp inv
    exact legal (byteOperation_eq_illegal (Except.ok.inj selected))

end Sys2Proof.Machine
end

section
/-! The payload decoder's operations (41_decode.md R141 to R147, R151): a word's lane, the kind of a half-frame, the three rows of a
HALF key, and what a decode can leave in a slot. -/

namespace Sys2Proof.Machine

/-! ### The words of a half-frame -/

theorem entryValid_iff (e : Nat × Nat) : entryValid e = true ↔ 172 ≤ e.2 ∧ e.2 ≤ 1810 ∧ e.1 < 14 := by
  simp [entryValid, and_assoc]

/-- Settles O23: the lane is the entry read by division. -/
theorem decodeWordReadsIdWidthAndValidity : Obligations.DecodeWordReadsIdWidthAndValidity := by
  intro w s
  have entry := entryOf_toNat w
  have valid : (laneDecode w).valid = entryValid (laneEntry (laneDecode w)) := rfl
  refine ⟨decode_word w, laneDecode w, rfl, (congrArg Prod.fst entry).symm, (congrArg Prod.snd entry).symm, ?_⟩
  rw [valid]
  exact entryValid_iff _

/-- MID by the value of the first byte (30_encoding.md R83). -/
theorem payloadMid_false_iff_lt (p : Payload) : payloadMid p = false ↔ (payloadByte p 0).toNat < 128 := by
  rw [payloadMid_false_iff, payloadNats_head]
  omega

theorem payloadMid_of_second {p : Payload} (h : halfKind p = .second) : payloadMid p = true := by
  unfold halfKind at h
  split_ifs at h with _ mid
  exact mid

theorem payloadMid_of_first {p : Payload} (h : halfKind p = .first) : payloadMid p = false := by
  unfold halfKind at h
  split_ifs at h with _ mid
  exact eq_false_of_ne_true mid

/-- Settles O25: ALLV is the conjunction over the seven words. -/
theorem halfFrameIsValidIffAllSevenWordsAre : Obligations.HalfFrameIsValidIffAllSevenWordsAre := by
  intro p
  refine ⟨?_, fun second => ?_, fun first => (payloadMid_false_iff_lt p).mp (payloadMid_of_first first)⟩
  · rw [← allValid_iff_halfKind]
    simp [allValid, payloadLanes, payloadWords, payloadWord]
  · have mid := payloadMid_of_second second
    by_contra below
    rw [(payloadMid_false_iff_lt p).mpr (by omega)] at mid
    exact Bool.false_ne_true mid

/-! ### The commits -/

/-- A mask of ones asks for the whole HALF key. -/
theorem halfKey_of_masked {k v : BitVec 2} (fits : k &&& 0b11#2 = v) : k = v :=
  BitVec.and_allOnes.symm.trans fits

/-- A HALF key whose ALLV is 0 is MID followed by 0. -/
theorem halfKey_of_invalid {k : BitVec 2} (fits : k &&& 0b01#2 = 0b00#2) : k = k.extractLsb' 1 1 ++ 0#1 := by
  revert k; decide

/-- Settles O26: MID is left out of the row's mask. -/
theorem hfDiscardResetsTheCountOnly : Obligations.HfDiscardResetsTheCountOnly := by
  refine ⟨fun k fits => ?_, fun m s => ⟨s.discardHalf, rfl, rfl, rfl⟩⟩
  have decoded := decode_half (k.extractLsb' 1 1) 0#1
  rwa [← halfKey_of_invalid fits] at decoded

/-- Settles O27. -/
theorem hfCommit0StoresAndSetsTheCountToSeven : Obligations.HfCommit0StoresAndSetsTheCountToSeven := by
  refine ⟨fun k fits => ?_, fun s _ _ => ?_⟩
  · rw [halfKey_of_masked fits]
    exact decode_half 0#1 1#1
  · obtain ⟨slots, frame⟩ := commitFirst_spec s
    refine ⟨s.commitFirst, rfl, slots, ?_, ?_⟩ <;> rw [frame]

/-- Settles O28: each flag is or-ed with the test for 14. -/
theorem hfCommit1MergesAndCompletesAtFourteen : Obligations.HfCommit1MergesAndCompletesAtFourteen := by
  refine ⟨fun k fits => ?_, fun s _ _ => ?_⟩
  · rw [halfKey_of_masked fits]
    exact decode_half 1#1 1#1
  · obtain ⟨slots, frame⟩ := commitSecond_spec s
    refine ⟨s.commitSecond, rfl, slots, ?_, ?_, ?_, ?_⟩ <;> rw [frame]
    · exact satAdd7_toNat s.cuc
    · intro (complete : satAdd7 s.cuc = 14#5)
      simp [complete]
    · intro (incomplete : satAdd7 s.cuc ≠ 14#5)
      simp [incomplete]

/-- Settles O29: each of the three ways to commit is one row of the HALF keys. -/
theorem commitOfADecodeIsTheHalfKeysRow : Obligations.CommitOfADecodeIsTheHalfKeysRow := by
  intro s mid
  rcases commitHalf_cases s mid with ⟨invalid, commit⟩ | ⟨valid, second, commit⟩ | ⟨valid, first, commit⟩
  · rw [invalid, commit]
    exact ⟨.hfDiscard (BitVec.ofBool mid), decode_half (BitVec.ofBool mid) 0#1, rfl⟩
  · rw [valid, commit, second]
    exact ⟨.hfCommit1, decode_half 1#1 1#1, rfl⟩
  · rw [valid, commit, first]
    exact ⟨.hfCommit0, decode_half 0#1 1#1, rfl⟩

/-- Settles O30: of the lanes that name the channel the later one is the last. -/
theorem laterLaneOfAChannelWins : Obligations.LaterLaneOfAChannelWins := by
  intro s k k' _ hk' seven valid _ _ last
  have allLanes : ∀ l ∈ s.lanes, l.valid = true := fun l hl => (valid l hl).1
  have slot : s.lanes[k'].chid.toNat < 14 := (valid _ (List.getElem_mem hk')).2
  have lastNamed (j : Nat) (hj : j < s.lanes.length) (later : k' < j) :
      s.lanes[j].chid.toNat ≠ s.lanes[k'].chid.toNat := fun same => last j hj later (BitVec.eq_of_toNat_eq same)
  obtain ⟨-, commit0⟩ := hfCommit0StoresAndSetsTheCountToSeven
  obtain ⟨-, commit1⟩ := hfCommit1MergesAndCompletesAtFourteen
  obtain ⟨t, run, slots, count, -⟩ := commit0 s seven allLanes
  obtain ⟨u, run', slots', count', -⟩ := commit1 s seven allLanes
  obtain ⟨written, -⟩ := slots _ slot
  obtain ⟨written', -⟩ := slots' _ slot
  exact ⟨⟨t, run, (written k' hk' rfl lastNamed).2, count⟩, ⟨u, run', (written' k' hk' rfl lastNamed).2, count'⟩⟩

/-! ### What a decode can leave in a slot -/

/-- A slot holds what it held before. -/
def State.SlotKept (s t : State) (c : Nat) : Prop := t.populated c = s.populated c ∧ t.slotPw c = s.slotPw c

/-- Lanes within the limits leave each slot as it was or legal, whatever it held. -/
theorem SlotsWritten.kept_or_legal {s t : State} {ls : List Lane} {emptied : Bool} (h : SlotsWritten s t ls emptied)
    (valid : ∀ l ∈ ls, l.chid.toNat < 14 ∧ 172 ≤ l.pw.toNat ∧ l.pw.toNat ≤ 1810 ∧ l.pw.toNat % 2 = 0)
    {c : Nat} (hc : c < 14) : s.SlotKept t c ∨ slotLegal (t.populated c) (t.slotPw c) := by
  obtain ⟨written, others⟩ := h c hc
  rcases exists_last_lane ls c with none | ⟨k, hk, named, last⟩
  · obtain ⟨empty, kept⟩ := others none
    cases emptied with
    | true => exact .inr (.inr (empty rfl))
    | false => exact .inl (kept rfl)
  · obtain ⟨pop, pw⟩ := written k hk named last
    obtain ⟨-, range⟩ := valid _ (List.getElem_mem hk)
    rw [pop, pw]
    exact .inr (.inl ⟨rfl, range⟩)

theorem HalfFrameEffect.kept_or_legal {s t : State} {p : Payload} (h : HalfFrameEffect s t p) {c : Nat} (hc : c < 14) :
    s.SlotKept t c ∨ slotLegal (t.populated c) (t.slotPw c) := by
  cases kind : halfKind p with
  | discard =>
    simp only [HalfFrameEffect, kind] at h
    obtain ⟨pop, pw, -⟩ := h
    exact .inl ⟨by rw [State.populated, pop]; rfl, by rw [State.slotPw, pw]; rfl⟩
  | first =>
    simp only [HalfFrameEffect, kind] at h
    obtain ⟨slots, -⟩ := h
    exact slots.kept_or_legal (payloadLanes_valid (by simp [kind])) hc
  | second =>
    simp only [HalfFrameEffect, kind] at h
    obtain ⟨slots, -⟩ := h
    exact slots.kept_or_legal (payloadLanes_valid (by simp [kind])) hc

/-- Settles O31: BYTE_PAYLOAD_LAST has the effect of the half-frame that its byte completes. -/
theorem outOfRangeValuesAreNeverStored : Obligations.OutOfRangeValuesAreNeverStored := by
  intro s t b c hc run
  obtain ⟨u, run', effect, -⟩ := execBytePayloadLast_spec b s
  obtain rfl : u = t := Host.Outcome.next.inj (run'.symm.trans run)
  exact effect.kept_or_legal hc

end Sys2Proof.Machine
end

section
/-! Sequences of frames (41_decode.md R144 to R149, 95_test_vectors.md E2): runs joined one after another, the count and FRAME_READY
after one half-frame, and the RELEASE that lets the next frame in. -/

namespace Sys2Proof.Machine

/-! ### Runs joined -/

section
variable {s s' t u : State}

theorem runPins_own_congr (ps : List Pins) (same : s.own = s'.own) :
    ∃ t t', runPins ps s = .next t ∧ runPins ps s' = .next t' ∧ t.own = t'.own := by
  induction ps generalizing s s' with
  | nil => exact ⟨_, _, runPins_nil s, runPins_nil s', same⟩
  | cons p ps ih =>
    rw [runPins_cons, runPins_cons]
    exact ih (stepAfter_own_congr same rfl)

/-- A run that goes on with more pins: the pins still to come make no difference to the block before they come. -/
theorem runPins_append_own {ps qs : List Pins} (same : s.own = s'.own) (run : runPins ps s' = .next t)
    (more : runPins qs t = .next u) : ∃ v, runPins (ps ++ qs) s = .next v ∧ v.own = u.own := by
  induction ps generalizing s s' with
  | nil =>
    obtain rfl : s'.setInputs [] = t := Host.Outcome.next.inj run
    obtain ⟨v, u', runs, runs', ends⟩ := runPins_own_congr (s := s) (s' := s'.setInputs []) qs same
    obtain rfl : u' = u := Host.Outcome.next.inj (runs'.symm.trans more)
    exact ⟨v, runs, ends⟩
  | cons p ps ih =>
    rw [runPins_cons] at run
    have stepped : (stepAfter (s.setInputs (p :: (ps ++ qs)))).own = (stepAfter (s'.setInputs (p :: ps))).own :=
      stepAfter_own_congr same rfl
    rw [List.cons_append, runPins_cons]
    exact ih stepped run

/-- The elements that statements about frames speak of are the block's own. -/
theorem elements_of_own (same : s.own = t.own) :
    s.sync = t.sync ∧ s.cuc = t.cuc ∧ s.frameReady = t.frameReady ∧ s.hold = t.hold :=
  ⟨(congrArg State.sync same :), (congrArg State.cuc same :), (congrArg State.frameReady same :),
    (congrArg State.hold same :)⟩

end

/-! ### One frame -/

/-- A half-frame keeps CUC at the lesser of 31 and the unbounded count, and sets FRAME_READY exactly if it completes a cycle for
that count (41_decode.md R149). -/
theorem HalfFrameEffect.count {s t : State} {p : Payload} {n : Nat} (h : HalfFrameEffect s t p)
    (count : s.cuc.toNat = min n 31) :
    t.cuc.toNat = min (unboundedCount n p) 31 ∧ t.frameReady = (s.frameReady || unboundedCompletes n p) := by
  cases kind : halfKind p with
  | discard =>
    simp only [HalfFrameEffect, kind] at h
    obtain ⟨-, -, zero, ready, -⟩ := h
    simp [unboundedCount, unboundedCompletes, kind, zero, ready]
  | first =>
    simp only [HalfFrameEffect, kind] at h
    obtain ⟨-, seven, ready, -⟩ := h
    simp [unboundedCount, unboundedCompletes, kind, seven, ready]
  | second =>
    simp only [HalfFrameEffect, kind] at h
    obtain ⟨-, more, ready, -⟩ := h
    have completes := count_completes_iff count more
    refine ⟨?_, ?_⟩
    · simp only [unboundedCount, kind]
      omega
    · simp [unboundedCount, unboundedCompletes, kind, ready, completes, beq_eq_decide]

/-- The pins of a RELEASE. -/
abbrev releasePins : Pins := writePins 0x01#8 2#32

@[simp] theorem State.setInputs_own (s : State) (ps : List Pins) : (s.setInputs ps).own = s.own := rfl

@[simp] theorem State.setHold_own (s : State) (v : Bool) : (s.setHold v).own = s.own.setHold v := rfl

theorem regAfter_release (s : State) : regAfter releasePins s = s.setHold false := by
  show (s.clearCommand 2#32).releaseCommand 2#32 = s.setHold false
  rw [control_eq]
  rfl

/-- A RELEASE clears HOLD and changes nothing else of the block (43_host.md R215). -/
theorem runPins_release (s : State) : ∃ t, runPins [releasePins] s = .next t ∧ t.own = (s.setHold false).own := by
  have write : stepAfter (s.setInputs [releasePins]) = regAfter releasePins (s.setInputs [releasePins]).beginStep :=
    stepAfter_of_no_byte _ rfl rfl
  rw [runPins_cons, runPins_nil, write, regAfter_release]
  refine ⟨_, rfl, ?_⟩
  rw [State.setInputs_own, State.setHold_own, State.beginStep_own, State.setInputs_own, State.setHold_own]

/-- A frame and its RELEASE bring the block back to Idle with HOLD = 0, the count and FRAME_READY as the half-frame leaves them. -/
theorem runPins_releasedFrame {s : State} {n : Nat} (p : Payload) (idle : s.sync = syncIdle) (noHold : s.hold = false)
    (count : s.cuc.toNat = min n 31) :
    ∃ t, runPins (framePins p ++ [releasePins]) s = .next t
      ∧ t.sync = syncIdle ∧ t.hold = false ∧ t.cuc.toNat = min (unboundedCount n p) 31
      ∧ t.frameReady = (s.frameReady || unboundedCompletes n p) := by
  obtain ⟨t, run, idleAfter, -, -, -, effect⟩ := wholeFrameIsDecodedOnce s p idle noHold
  obtain ⟨u, release, released⟩ := runPins_release t
  obtain ⟨v, both, ends⟩ := runPins_append_own rfl run release
  obtain ⟨sync, cuc, ready, hold⟩ := elements_of_own (ends.trans released)
  obtain ⟨countAfter, readyAfter⟩ := effect.count count
  exact ⟨v, both, sync.trans idleAfter, hold, by rw [cuc]; exact countAfter, ready.trans readyAfter⟩

/-! ### Sequences -/

theorem releasedFrames_cons (p : Payload) (ps : List Payload) :
    releasedFrames (p :: ps) = (framePins p ++ [releasePins]) ++ releasedFrames ps := List.flatMap_cons

/-- Settles O33, by induction on the frames: each leaves the block as the next one needs it, with the unbounded count moved on. -/
theorem counterAgreesWithTheUnboundedCount : Obligations.CounterAgreesWithTheUnboundedCount := by
  intro ps
  induction ps with
  | nil =>
    intro s n idle noHold count
    exact ⟨_, runPins_nil s, count, (Bool.or_false _).symm, idle, noHold⟩
  | cons p ps ih =>
    intro s n idle noHold count
    obtain ⟨t, run, idle', noHold', count', ready'⟩ := runPins_releasedFrame p idle noHold count
    obtain ⟨u, rest, countEnd, readyEnd, idleEnd, holdEnd⟩ := ih t (unboundedCount n p) idle' noHold' count'
    obtain ⟨v, whole, ends⟩ := runPins_append_own rfl run rest
    obtain ⟨sync, cuc, ready, hold⟩ := elements_of_own ends
    refine ⟨v, by rw [releasedFrames_cons]; exact whole, by rw [cuc]; exact countEnd, ?_, sync.trans idleEnd,
      hold.trans holdEnd⟩
    rw [ready, readyEnd, ready', Bool.or_assoc]
    rfl

/-- Settles O34: the first half sets the count to 7 and leaves HOLD at 0, so the second frame is accepted and counts to 14. -/
theorem firstThenSecondHalfCompletesACycle : Obligations.FirstThenSecondHalfCompletesACycle := by
  intro s p q idle noHold first second
  obtain ⟨t, run, idle', -, -, -, effect⟩ := wholeFrameIsDecodedOnce s p idle noHold
  simp only [HalfFrameEffect, first] at effect
  obtain ⟨-, seven, -, holdKept⟩ := effect
  obtain ⟨u, rest, idleEnd, -, -, -, effect'⟩ := wholeFrameIsDecodedOnce t q idle' (holdKept.trans noHold)
  simp only [HalfFrameEffect, second] at effect'
  obtain ⟨-, more, readyEnd, holdEnd⟩ := effect'
  have fourteen : u.cuc = 14#5 := (count_completes_iff (n := 7) (by rw [seven]; rfl) more).mpr rfl
  obtain ⟨v, whole, ends⟩ := runPins_append_own rfl run rest
  obtain ⟨sync, cuc, ready, hold⟩ := elements_of_own ends
  exact ⟨v, whole, cuc.trans fourteen, by simp [ready, readyEnd, fourteen], by simp [hold, holdEnd, fourteen],
    sync.trans idleEnd⟩

end Sys2Proof.Machine
end

section
/-! The channel registers as views of the store (42_store.md R180 to R189): a slot's raw value and its offset, and what leaves the
store alone. -/

namespace Sys2Proof.Machine

/-! ### Slots -/

theorem State.populated_eq_getElem (s : State) {c : Nat} (hc : c < 14) : s.populated c = s.chPop[c] := by
  simp [State.populated, hc]

theorem State.slotPw_eq_getElem (s : State) {c : Nat} (hc : c < 14) : s.slotPw c = s.chPw[c] := by
  simp [State.slotPw, hc]

/-- OFS of a populated slot (42_store.md R181, R182). -/
theorem State.ofs_of_populated {s : State} {c : Nat} (h : s.populated c = true) : s.ofs c = (s.slotPw c).toNat - 991 := by
  simp [State.ofs, State.pwEff, h]

/-- An unpopulated slot counts as MISSING_PW, whatever CH_PW holds there. -/
theorem State.ofs_of_unpopulated {s : State} {c : Nat} (h : s.populated c = false) : s.ofs c = -991 := by
  simp [State.ofs, State.pwEff, h]

/-- A width has 11 bits, so an offset lies in -991 to 1056 in every state. -/
theorem State.ofs_bounds (s : State) (c : Nat) : -991 ≤ s.ofs c ∧ s.ofs c ≤ 1056 := by
  have width := (s.pwEff c).isLt
  simp only [State.ofs, Config.normCenter]
  omega

/-- The offset by the elements of the store. -/
theorem State.ofs_eq (s : State) {c : Nat} (hc : c < 14) :
    s.ofs c = (if s.chPop[c] then ((s.chPw[c]).toNat : Int) else 0) - 991 := by
  rw [← s.populated_eq_getElem hc, ← s.slotPw_eq_getElem hc]
  cases h : s.populated c with
  | true => simpa using State.ofs_of_populated h
  | false => simpa using State.ofs_of_unpopulated h

/-! ### CH_RAW and CH_OFS -/

/-- CH_RAW is CH_POP above 16 bits that hold CH_PW alone. -/
theorem State.chRawReg_toNat (s : State) (c : Nat) :
    (s.chRawReg c).toNat = (if s.populated c then 65536 else 0) + (s.slotPw c).toNat := by
  unfold State.chRawReg
  rw [BitVec.toNat_append, ← Nat.shiftLeft_add_eq_or_of_lt (BitVec.isLt _), Nat.shiftLeft_eq]
  cases s.populated c <;> rfl

/-- 32 bits hold every offset. -/
theorem State.chOfsReg_toInt (s : State) (c : Nat) : (s.chOfsReg c).toInt = s.ofs c := by
  obtain ⟨low, high⟩ := s.ofs_bounds c
  exact BitVec.toInt_ofInt_eq_self (by omega) (by omega) (by omega)

/-- Settles O36. -/
theorem rdChRawShowsTheSlot : Obligations.RdChRawShowsTheSlot := by
  refine ⟨fun c d hc => ?_, fun c hc s => ⟨s.chRawReg c.toNat, rfl, ?_, fun inv => ?_⟩⟩
  · obtain ⟨raw, -, -, -⟩ := decode_channelKey c hc d
    exact raw
  · rw [s.chRawReg_toNat, s.populated_eq_getElem hc, s.slotPw_eq_getElem hc]
  · obtain ⟨-, ⟨legal, -⟩, -⟩ := s.inv_iff.mp inv
    rw [← s.populated_eq_getElem hc, ← s.slotPw_eq_getElem hc]
    rcases legal c.toNat hc with ⟨pop, low, high, even⟩ | ⟨pop, pw⟩
    · exact ⟨fun unpopulated => by simp [pop] at unpopulated, fun _ => ⟨low, high, even⟩⟩
    · refine ⟨fun _ => ?_, fun populated => by simp [pop] at populated⟩
      apply BitVec.eq_of_toNat_eq
      rw [s.chRawReg_toNat, pop, pw]
      rfl

/-- Settles O37. -/
theorem rdChOfsIsTheExactOffset : Obligations.RdChOfsIsTheExactOffset := by
  refine ⟨fun c d hc => ?_, fun c hc s => ⟨s.chOfsReg c.toNat, rfl, ?_⟩⟩
  · obtain ⟨-, ofs, -, -⟩ := decode_channelKey c hc d
    exact ofs
  · rw [s.chOfsReg_toInt, s.ofs_eq hc]

/-- Settles O40: a populated slot holds an even width from 172 to 1810, and 991 is odd. -/
theorem offsetsAreOddAndBounded : Obligations.OffsetsAreOddAndBounded := by
  intro s c inv hc
  obtain ⟨-, ⟨legal, -⟩, -⟩ := s.inv_iff.mp inv
  have register := s.chOfsReg_toInt c
  rcases legal c hc with ⟨pop, low, high, even⟩ | ⟨pop, -⟩
  · have ofs := State.ofs_of_populated pop
    exact ⟨fun _ => by omega, fun unpopulated => by simp [pop] at unpopulated, by omega, register⟩
  · have ofs := State.ofs_of_unpopulated pop
    exact ⟨fun populated => by simp [pop] at populated, fun _ => ofs, by omega, register⟩

/-! ### What leaves the store alone -/

/-- From 0x10 on the registers are views of the store and of nothing else (42_store.md R188). -/
theorem State.regRead_congr_of_store {s t : State} (pop : t.chPop = s.chPop) (pw : t.chPw = s.chPw) (a : RegAddr)
    (channel : 0x10 ≤ a.toNat) : t.regRead a = s.regRead a := by
  have notStatus : ¬ a.toNat = 0 := by omega
  cases s
  cases t
  obtain rfl := pop
  obtain rfl := pw
  unfold State.regRead
  rw [if_neg notStatus, if_neg notStatus]
  rfl

/-- Settles O44. -/
theorem channelRegistersSurviveClearAndRelease : Obligations.ChannelRegistersSurviveClearAndRelease := by
  intro v s
  refine ⟨(s.clearCommand v).releaseCommand v, rfl, fun a channel => State.regRead_congr_of_store ?_ ?_ a channel⟩
  all_goals rw [control_eq]

@[simp] theorem regAfter_chPop (p : Pins) (s : State) : (regAfter p s).chPop = s.chPop := by rw [regAfter_eq]
@[simp] theorem regAfter_chPw (p : Pins) (s : State) : (regAfter p s).chPw = s.chPw := by rw [regAfter_eq]
@[simp] theorem regAfter_cuc (p : Pins) (s : State) : (regAfter p s).cuc = s.cuc := by rw [regAfter_eq]

/-- Settles O53: a register operation never writes the store or the count, and of the byte operations only the one at a payload's
last byte does. -/
theorem storeAndCountChangeOnlyAtAPayloadsLastByte : Obligations.StoreAndCountChangeOnlyAtAPayloadsLastByte := by
  intro s t hstep noReset notLast
  obtain rfl : stepAfter s = t := stepAfter_eq_of_step hstep
  cases accepted : s.accepts s.nextPins with
  | true =>
    have notLast' : ¬((regAfter s.nextPins s.beginStep).sync = syncInPayload
        ∧ (regAfter s.nextPins s.beginStep).pbc = 13#4) := by
      rw [regAfter_sync, regAfter_pbc]
      exact fun last => notLast ⟨accepted, last⟩
    rw [stepAfter_of_accepts s noReset accepted, byteAfter_eq_of_not_last _ _ notLast']
    exact ⟨regAfter_chPop _ _, regAfter_chPw _ _, regAfter_cuc _ _⟩
  | false =>
    rw [stepAfter_of_no_byte s noReset accepted]
    exact ⟨regAfter_chPop _ _, regAfter_chPw _ _, regAfter_cuc _ _⟩

end Sys2Proof.Machine
end

section
/-! CH_NORM (42_store.md R183, R186, R187, R190): the encoding that the normalizer computes is the binary64 value nearest to the
quotient, ties to even (00_scope.md R9; PRESUMED format, log 8). Scaled by the power of two that makes the quotient a 53-bit
significand, the encoding stands for the nearest integer, and every other encoding for an integer or for less than 2^52. -/

namespace Sys2Proof.Machine

/-! ### Rounding to an integer -/

/-- An integer within half a unit of Q is nearest to Q, and shares its distance with another integer only at half a unit. -/
theorem nearest_of_within_half {Q : ℚ} {m : ℤ} (near : |m - Q| ≤ 1 / 2) (even : |m - Q| = 1 / 2 → m % 2 = 0) (j : ℤ) :
    |m - Q| ≤ |j - Q| ∧ (|m - Q| = |j - Q| → j = m ∨ m % 2 = 0) := by
  by_cases same : j = m
  · rw [same]
    exact ⟨le_rfl, fun _ => .inl rfl⟩
  · have apart : (1 : ℚ) ≤ |(j : ℚ) - m| := by exact_mod_cast Int.one_le_abs (sub_ne_zero.mpr same)
    have triangle : |(j : ℚ) - m| ≤ |(j : ℚ) - Q| + |(m : ℚ) - Q| := by
      rw [abs_sub_comm (m : ℚ) Q]
      exact abs_sub_le _ _ _
    exact ⟨by linarith, fun tie => .inr (even (by linarith))⟩

/-- The same against every integer from c up and every value below c, for a c that Q reaches. -/
theorem nearest_of_within_half_of_le {Q Y : ℚ} {m c : ℤ} (near : |m - Q| ≤ 1 / 2) (even : |m - Q| = 1 / 2 → m % 2 = 0)
    (reached : c ≤ Q) (grid : Y < c ∨ ∃ j : ℤ, Y = j) :
    |m - Q| ≤ |Y - Q| ∧ (|m - Q| = |Y - Q| → Y = m ∨ m % 2 = 0) := by
  rcases grid with below | ⟨j, rfl⟩
  · obtain ⟨closer, -⟩ := nearest_of_within_half near even c
    have further : |c - Q| < |Y - Q| := by
      rw [abs_of_nonpos (by linarith), abs_of_nonpos (by linarith)]
      linarith
    exact ⟨by linarith, fun tie => by linarith⟩
  · obtain ⟨closer, tied⟩ := nearest_of_within_half near even j
    exact ⟨closer, fun tie => (tied tie).imp_left (congrArg Int.cast)⟩

/-- `roundedQuotient_spec` as a distance between rationals. -/
theorem roundedQuotient_within_half (n d : Nat) (hd : 0 < d) :
    |(roundedQuotient n d : ℚ) - n / d| ≤ 1 / 2
    ∧ (|(roundedQuotient n d : ℚ) - n / d| = 1 / 2 → roundedQuotient n d % 2 = 0) := by
  obtain ⟨above, below, even⟩ := roundedQuotient_spec n d hd
  generalize roundedQuotient n d = m at *
  have positive : (0 : ℚ) < 2 * d := by positivity
  have error : ((m : ℚ) - n / d) * (2 * d) = 2 * (m * d) - 2 * n := by field_simp
  generalize (m : ℚ) - n / d = r at *
  have above' : 2 * ((m : ℚ) * d) ≤ 2 * n + d := by exact_mod_cast above
  have below' : 2 * (n : ℚ) ≤ 2 * (m * d) + d := by exact_mod_cast below
  refine ⟨abs_le.mpr ⟨?_, ?_⟩, fun tie => even ?_⟩
  · exact le_of_mul_le_mul_right (by linarith) positive
  · exact le_of_mul_le_mul_right (by linarith) positive
  · rcases (abs_eq one_half_pos.le).mp tie with rfl | rfl
    · exact .inl (by exact_mod_cast (by linarith : 2 * ((m : ℚ) * d) = 2 * n + d))
    · exact .inr (by exact_mod_cast (by linarith : 2 * (n : ℚ) = 2 * (m * d) + d))

/-! ### The values of binary64 -/

/-- The magnitude of an encoding with exponent field e and fraction field f. -/
def fieldsValue (e f : Nat) : ℚ :=
  if e = 0 then (f : ℚ) / 2 ^ 1074 else ((2 ^ 52 + f : Nat) : ℚ) * 2 ^ e / 2 ^ 1075

/-- -1 for an encoding with the sign bit set, 1 for any other. -/
def signFactor (negative : Bool) : ℚ := if negative then -1 else 1

theorem signFactor_mul_self (b : Bool) : signFactor b * signFactor b = 1 := by
  cases b <;> norm_num [signFactor]

theorem abs_signFactor (b : Bool) : |signFactor b| = 1 := by
  cases b <;> norm_num [signFactor]

theorem value64_eq (x : BitVec 64) :
    value64 x = signFactor (x.getLsbD 63) * fieldsValue (x.toNat / 2 ^ 52 % 2048) (x.toNat % 2 ^ 52) := by
  show (if x.getLsbD 63 then -fieldsValue _ _ else fieldsValue _ _) = _
  cases x.getLsbD 63 <;> simp [signFactor]

theorem fieldsValue_nonneg (e f : Nat) : 0 ≤ fieldsValue e f := by
  unfold fieldsValue
  split_ifs <;> positivity

/-- A normal encoding whose significand has k bits below the unit. -/
theorem fieldsValue_normal {e k : Nat} (f : Nat) (normal : e ≠ 0) (unit : e + k = 1075) :
    fieldsValue e f = ((2 ^ 52 + f : Nat) : ℚ) / 2 ^ k := by
  rw [fieldsValue, if_neg normal, ← unit, pow_add]
  field_simp

/-- A significand of 2^53 is carried into the exponent. -/
theorem fieldsValue_carry {e : Nat} (normal : e ≠ 0) : fieldsValue (e + 1) 0 = fieldsValue e (2 ^ 52) := by
  rw [fieldsValue, fieldsValue, if_neg normal, if_neg (Nat.succ_ne_zero e)]
  congr 1
  push_cast
  ring

/-- Scaled by 2^k, an encoding stands for an integer from 2^52 on; below, for a value less than 2^52. -/
theorem fieldsValue_scaled (e : Nat) {f k : Nat} (fraction : f < 2 ^ 52) (hk : k ≤ 1074) :
    fieldsValue e f * 2 ^ k < 2 ^ 52 ∨ ∃ j : ℕ, fieldsValue e f * 2 ^ k = j := by
  by_cases subnormal : e = 0
  · left
    obtain ⟨r, hr⟩ := Nat.exists_eq_add_of_le' hk
    have scaled : fieldsValue e f * 2 ^ k = (f : ℚ) / 2 ^ r := by
      rw [fieldsValue, if_pos subnormal, hr, div_mul_eq_mul_div, pow_add, mul_div_mul_right _ _ (by positivity)]
    have small : (f : ℚ) < 2 ^ 52 := by exact_mod_cast fraction
    rw [scaled]
    exact (div_le_self (Nat.cast_nonneg f) (one_le_pow₀ one_le_two)).trans_lt small
  · have scaled : fieldsValue e f * 2 ^ k = ((2 ^ 52 + f : Nat) : ℚ) * 2 ^ (e + k) / 2 ^ 1075 := by
      rw [fieldsValue, if_neg subnormal, div_mul_eq_mul_div, mul_assoc, ← pow_add]
    have significand : 2 ^ 52 + f < 2 ^ 53 := by omega
    generalize 2 ^ 52 + f = c at *
    rcases Nat.lt_or_ge (e + k) 1075 with below | above
    · left
      obtain ⟨r, hr⟩ := Nat.exists_eq_add_of_le' (Nat.succ_le_of_lt below)
      have small : (c : ℚ) / 2 < 2 ^ 52 := by
        rw [div_lt_iff₀ two_pos, ← pow_succ]
        exact_mod_cast significand
      rw [scaled, hr, Nat.succ_eq_add_one, ← add_assoc, add_right_comm, pow_add _ (r + 1),
        mul_div_mul_right _ _ (pow_ne_zero _ two_ne_zero), pow_succ', ← div_div]
      exact (div_le_self (by positivity) (one_le_pow₀ one_le_two)).trans_lt small
    · right
      obtain ⟨r, hr⟩ := Nat.exists_eq_add_of_le' above
      refine ⟨c * 2 ^ r, ?_⟩
      rw [scaled, hr, pow_add, ← mul_assoc, mul_div_cancel_right₀ _ (by positivity), Nat.cast_mul, Nat.cast_pow,
        Nat.cast_two]

/-- The same for an encoding with its sign, seen from either side of 0. -/
theorem value64_scaled (y : BitVec 64) (b : Bool) {k : Nat} (hk : k ≤ 1074) :
    signFactor b * value64 y * 2 ^ k < 2 ^ 52 ∨ ∃ j : ℤ, signFactor b * value64 y * 2 ^ k = j := by
  have sides : signFactor b * value64 y = fieldsValue (y.toNat / 2 ^ 52 % 2048) (y.toNat % 2 ^ 52)
      ∨ signFactor b * value64 y = -fieldsValue (y.toNat / 2 ^ 52 % 2048) (y.toNat % 2 ^ 52) := by
    rw [value64_eq]
    cases b <;> cases y.getLsbD 63 <;> simp [signFactor]
  have nonneg := fieldsValue_nonneg (y.toNat / 2 ^ 52 % 2048) (y.toNat % 2 ^ 52)
  have grid := fieldsValue_scaled (y.toNat / 2 ^ 52 % 2048) (Nat.mod_lt y.toNat (by decide : 0 < 2 ^ 52)) hk
  generalize fieldsValue _ _ = v at *
  rcases sides with same | opposite
  · rw [same]
    exact grid.imp_right fun ⟨j, hj⟩ => ⟨j, by exact_mod_cast hj⟩
  · left
    rw [opposite]
    have : 0 ≤ v * 2 ^ k := by positivity
    linarith

/-- The encoding that `rne64` writes: the sign, and the significand m in units of 2^-k added to the exponent field. -/
theorem encoding_of_significand {x : BitVec 64} {b : Bool} {k m : Nat} (hk : k ≤ 1073)
    (bits : x = BitVec.ofNat 64 ((if b then 2 ^ 63 else 0) + ((1074 - k) * 2 ^ 52 + m)))
    (low : 2 ^ 52 ≤ m) (high : m ≤ 2 ^ 53) :
    value64 x = signFactor b * (m / 2 ^ k) ∧ finite64 x ∧ (m % 2 = 0 → x.getLsbD 0 = false) := by
  replace bits : x.toNat = (if b then 2 ^ 63 else 0) + ((1074 - k) * 2 ^ 52 + m) := by
    rw [bits, BitVec.toNat_ofNat, Nat.mod_eq_of_lt]
    split_ifs <;> omega
  have sign : x.getLsbD 63 = b := by
    rw [← BitVec.testBit_toNat, Nat.testBit_eq_decide_div_mod_eq, bits]
    cases b <;> simp <;> omega
  have parity : m % 2 = 0 → x.getLsbD 0 = false := by
    intro even
    rw [← BitVec.testBit_toNat, Nat.testBit_eq_decide_div_mod_eq, bits]
    cases b <;> simp <;> omega
  have fields : ∃ e, (x.toNat / 2 ^ 52 % 2048 = e ∧ e ≠ 2047)
      ∧ fieldsValue e (x.toNat % 2 ^ 52) = fieldsValue (1075 - k) (m - 2 ^ 52) := by
    have exponent : 1075 - k ≠ 0 := by omega
    rcases Nat.lt_or_ge m (2 ^ 53) with below | carry
    · have fraction : x.toNat % 2 ^ 52 = m - 2 ^ 52 := by rw [bits]; split_ifs <;> omega
      exact ⟨1075 - k, ⟨by rw [bits]; split_ifs <;> omega, by omega⟩, by rw [fraction]⟩
    · have fraction : x.toNat % 2 ^ 52 = 0 := by rw [bits]; split_ifs <;> omega
      have full : m - 2 ^ 52 = 2 ^ 52 := by omega
      refine ⟨1075 - k + 1, ⟨by rw [bits]; split_ifs <;> omega, by omega⟩, ?_⟩
      rw [fraction, full, fieldsValue_carry exponent]
  obtain ⟨e, ⟨exponent, finite⟩, value⟩ := fields
  refine ⟨?_, by rw [finite64, exponent]; exact finite, parity⟩
  rw [value64_eq, sign, exponent, value, fieldsValue_normal _ (by omega) (by omega : 1075 - k + k = 1075),
    Nat.add_sub_cancel' low]

/-! ### The nearest encoding -/

/-- If the scaled quotient Q is at least 2^52, an encoding of the integer nearest to Q, ties to even, is nearest to the quotient. -/
theorem isRne64_of_scaled {x : BitVec 64} {q Q : ℚ} {b : Bool} {k m : Nat} (hk : k ≤ 1074)
    (value : value64 x = signFactor b * (m / 2 ^ k)) (finite : finite64 x) (parity : m % 2 = 0 → x.getLsbD 0 = false)
    (quotient : q = signFactor b * (Q / 2 ^ k)) (normal : 2 ^ 52 ≤ Q) (near : |m - Q| ≤ 1 / 2)
    (even : |m - Q| = 1 / 2 → m % 2 = 0) : IsRne64 x q := by
  have positive : (0 : ℚ) < 2 ^ k := by positivity
  have unscale (v : ℚ) : v = signFactor b * (signFactor b * v * 2 ^ k / 2 ^ k) := by
    rw [mul_div_cancel_right₀ _ positive.ne', ← mul_assoc, signFactor_mul_self, one_mul]
  have distance (u v : ℚ) : |signFactor b * (u / 2 ^ k) - signFactor b * (v / 2 ^ k)| = |u - v| / 2 ^ k := by
    rw [← mul_sub, abs_mul, abs_signFactor, one_mul, ← sub_div, abs_div, abs_of_pos positive]
  refine ⟨finite, fun y _ => ?_⟩
  have grid := value64_scaled y b hk
  have atY := unscale (value64 y)
  generalize signFactor b * value64 y * 2 ^ k = Y at grid atY
  obtain ⟨closer, tied⟩ := nearest_of_within_half_of_le (Q := Q) (Y := Y) (m := m) (c := 2 ^ 52) (by exact_mod_cast near)
    (fun tie => by exact_mod_cast even (by exact_mod_cast tie)) (by exact_mod_cast normal) (by exact_mod_cast grid)
  rw [Int.cast_natCast] at closer tied
  rw [value, quotient, atY, distance, distance, div_le_div_iff_of_pos_right positive, div_left_inj' positive.ne']
  exact ⟨closer, fun tie => (tied tie).imp (fun same => by rw [same]) fun even => parity (by exact_mod_cast even)⟩

/-- The quotient 0 is encoded as +0 (log 9). -/
theorem isRne64_zero : IsRne64 0#64 0 := by
  have zero : value64 0#64 = 0 := by
    rw [value64_eq]
    norm_num [fieldsValue]
  refine ⟨by unfold finite64; decide, fun y _ => ⟨?_, fun _ => .inr rfl⟩⟩
  rw [zero, sub_zero, abs_zero]
  exact abs_nonneg _

/-- The rounded significand of every quotient the normalizer forms has 53 bits, or is 2^53. -/
theorem significand_bounds {N : Nat} (low : 819 * 2 ^ 52 ≤ N) (high : N < 819 * 2 ^ 53) :
    2 ^ 52 ≤ roundedQuotient N 819 ∧ roundedQuotient N 819 ≤ 2 ^ 53 := by
  obtain ⟨above, below, -⟩ := roundedQuotient_spec N 819 (by decide)
  omega

theorem rne64_of_ne_zero {z : ℤ} (nonzero : z ≠ 0) (d : Nat) :
    rne64 z d = BitVec.ofNat 64 ((if decide (z < 0) then 2 ^ 63 else 0) + ((1074 - significandScale z.natAbs d) * 2 ^ 52
      + roundedQuotient (z.natAbs * 2 ^ significandScale z.natAbs d) d)) := by
  rw [rne64, if_neg nonzero, magnitude64]
  simp only [decide_eq_true_eq]

theorem cast_eq_signFactor_mul_natAbs (z : ℤ) : (z : ℚ) = signFactor (decide (z < 0)) * z.natAbs := by
  rcases lt_or_ge z 0 with negative | nonneg
  · have : (z : ℚ) = -(z.natAbs : ℤ) := by exact_mod_cast (by omega : z = -(z.natAbs : ℤ))
    simpa [signFactor, negative] using this
  · have : (z : ℚ) = (z.natAbs : ℤ) := by exact_mod_cast (by omega : z = (z.natAbs : ℤ))
    simpa [signFactor, not_lt.mpr nonneg] using this

/-- `rne64` rounds every quotient the normalizer forms (42_store.md R183). -/
theorem isRne64_rne64 (z : ℤ) (bounded : z.natAbs < 1057) : IsRne64 (rne64 z Config.normScale) (z / 819) := by
  by_cases zero : z = 0
  · rw [zero, rne64, if_pos rfl, Int.cast_zero, zero_div]
    exact isRne64_zero
  · obtain ⟨low, high, scale⟩ := significandScale_bounds z.natAbs bounded (Int.natAbs_pos.mpr zero)
    have written := rne64_of_ne_zero zero 819
    dsimp only [Config.normScale] at *
    generalize significandScale z.natAbs 819 = k at *
    obtain ⟨least, most⟩ := significand_bounds low high
    obtain ⟨near, even⟩ := roundedQuotient_within_half (z.natAbs * 2 ^ k) 819 (by decide)
    generalize roundedQuotient (z.natAbs * 2 ^ k) 819 = m at *
    obtain ⟨value, finite, parity⟩ := encoding_of_significand (by omega) written least most
    refine isRne64_of_scaled (by omega) value finite parity ?_ ?_ near even
    · rw [cast_eq_signFactor_mul_natAbs]
      push_cast
      field_simp
    · rw [le_div_iff₀ (by norm_num)]
      exact_mod_cast (by omega : 2 ^ 52 * 819 ≤ z.natAbs * 2 ^ k)

/-! ### The registers -/

/-- NORM of every slot in every state is the encoding nearest to OFS / 819 (42_store.md R183). -/
theorem State.norm_isRne64 (s : State) (c : Nat) : IsRne64 (s.norm c) (s.ofs c / 819) := by
  obtain ⟨low, high⟩ := s.ofs_bounds c
  exact isRne64_rne64 (s.ofs c) (by omega)

/-- Settles O38: the encoding is NORM itself, of which the two reads show a half each. -/
theorem rdChNormHalvesAreTheRoundedQuotient : Obligations.RdChNormHalvesAreTheRoundedQuotient := by
  refine ⟨fun c d hc => ?_, fun c hc s => ⟨s.norm c.toNat, ?_, rfl, rfl⟩⟩
  · obtain ⟨-, -, lo, hi⟩ := decode_channelKey c hc d
    exact ⟨lo, hi⟩
  · have rounded := s.norm_isRne64 c.toNat
    rw [s.ofs_eq hc] at rounded
    exact_mod_cast rounded

theorem State.norm_of_unpopulated {s : State} {c : Nat} (h : s.populated c = false) : s.norm c = rne64 (-991) 819 := by
  rw [State.norm, State.ofs_of_unpopulated h]

theorem State.norm_of_populated {s : State} {c : Nat} {w : PulseWidth} (h : s.populated c = true) (width : s.slotPw c = w) :
    s.norm c = rne64 (w.toNat - 991) 819 := by
  rw [State.norm, State.ofs_of_populated h, width]

/-- Settles O39: NORM is a function of the width alone, evaluated at each row of the table. -/
theorem normCornerValues : Obligations.NormCornerValues := by
  intro s c _
  refine ⟨fun h => (State.norm_of_unpopulated h).trans (by decide), ?_, ?_, ?_, ?_, ?_, ?_, ?_, ?_, ?_⟩
  all_goals exact fun h width => (State.norm_of_populated h width).trans (by decide)

end Sys2Proof.Machine
end

section
/-! The register operations of the host interface (43_host.md R214 to R217): the fields of STATUS, the reads that show 0, and what a
write does. -/

namespace Sys2Proof.Machine

/-! ### STATUS -/

theorem getLsbD_append_ofBool_zero {n : Nat} (x : BitVec n) (b : Bool) : (x ++ BitVec.ofBool b).getLsbD 0 = b := by
  rw [BitVec.getLsbD_append]
  simp

/-- A bit put below x moves the bits of x up by one. -/
theorem getLsbD_append_ofBool_succ {n : Nat} (x : BitVec n) (b : Bool) (i : Nat) :
    (x ++ BitVec.ofBool b).getLsbD (i + 1) = x.getLsbD i := by
  rw [BitVec.getLsbD_append]
  simp

theorem State.popMask_getLsbD (s : State) {c : Nat} (hc : c < 14) : s.popMask.getLsbD c = s.populated c := by
  unfold State.popMask
  obtain below | rfl : c < 13 ∨ c = 13 := by omega
  · interval_cases c
    all_goals
      repeat rw [getLsbD_append_ofBool_succ]
      rw [getLsbD_append_ofBool_zero]
  · iterate 13 rw [getLsbD_append_ofBool_succ]
    exact BitVec.getLsbD_ofBool ..

theorem State.statusReg_flags (s : State) : s.statusReg.getLsbD 0 = s.frameReady ∧ s.statusReg.getLsbD 1 = s.hold := by
  unfold State.statusReg
  rw [getLsbD_append_ofBool_zero, getLsbD_append_ofBool_succ, getLsbD_append_ofBool_zero]
  exact ⟨rfl, rfl⟩

/-- The fields of STATUS between the flags and the top, the reserved one among them: each is reached past the fields below it. -/
theorem State.statusReg_fields (s : State) :
    s.statusReg.extractLsb' 2 2 = s.sync ∧ s.statusReg.extractLsb' 4 4 = s.pbc ∧ s.statusReg.extractLsb' 8 5 = s.cuc
    ∧ s.statusReg.extractLsb' 13 3 = 0#3 ∧ s.statusReg.extractLsb' 16 14 = s.popMask := by
  unfold State.statusReg
  refine ⟨?_, ?_, ?_, ?_, ?_⟩
  all_goals
    repeat rw [BitVec.extractLsb'_append_eq_of_le (by omega)]
    rw [BitVec.extractLsb'_append_eq_of_add_le (by omega)]
    exact BitVec.extractLsb'_eq_self

/-- The topmost field, with nothing above it. -/
theorem State.statusReg_top (s : State) : s.statusReg.extractLsb' 30 2 = 0#2 := by
  unfold State.statusReg
  repeat rw [BitVec.extractLsb'_append_eq_of_le (by omega)]
  exact BitVec.extractLsb'_eq_self

theorem State.statusReg_chPop (s : State) {c : Nat} (hc : c < 14) : s.statusReg.getLsbD (16 + c) = s.chPop[c] := by
  obtain ⟨-, -, -, -, mask⟩ := s.statusReg_fields
  have bit := s.popMask_getLsbD hc
  rw [← mask, BitVec.getLsbD_extractLsb', decide_eq_true hc, Bool.true_and] at bit
  rw [bit, s.populated_eq_getElem hc]

/-- Settles O35: the value shown is STATUS; R35(a) keeps SYNC off 0b11. -/
theorem rdStatusShowsEveryField : Obligations.RdStatusShowsEveryField := by
  refine ⟨decode_read 0x00#8, fun s => ⟨s.statusReg, rfl, ?_⟩⟩
  obtain ⟨ready, hold⟩ := s.statusReg_flags
  obtain ⟨sync, pbc, cuc, reserved, -⟩ := s.statusReg_fields
  refine ⟨ready, hold, sync, pbc, cuc, reserved, fun c hc => s.statusReg_chPop hc, s.statusReg_top, fun inv => ?_⟩
  obtain ⟨⟨legal, -⟩, -⟩ := s.inv_iff.mp inv
  rw [sync]
  exact legal

/-! ### The reserved addresses -/

/-- The addresses of 43_host.md R217. -/
def ReservedAddress (a : RegAddr) : Prop :=
  (0x01 ≤ a.toNat ∧ a.toNat ≤ 0x0F) ∨ (0x1E ≤ a.toNat ∧ a.toNat ≤ 0x1F) ∨ (0x2E ≤ a.toNat ∧ a.toNat ≤ 0x3F)
    ∨ 0x5C ≤ a.toNat

/-- A read of a reserved address selects one of RD_RESERVED's four rows. -/
theorem readOperation_of_reserved {a : RegAddr} (reserved : ReservedAddress a) :
    (∃ x, readOperation a = .rdReserved1E x) ∨ (∃ x, readOperation a = .rdReserved2E x)
      ∨ (∃ x, readOperation a = .rdReserved5C x) ∨ readOperation a = .rdReservedOther a := by
  unfold ReservedAddress at reserved
  unfold readOperation
  split_ifs with status end1 end2 end5 raw ofs lo hi
  · bv_omega
  · exact .inl ⟨_, rfl⟩
  · exact .inr (.inl ⟨_, rfl⟩)
  · exact .inr (.inr (.inl ⟨_, rfl⟩))
  · bv_omega
  · bv_omega
  · obtain ⟨above, below, -⟩ := lo
    bv_omega
  · obtain ⟨above, below, -⟩ := hi
    bv_omega
  · exact .inr (.inr (.inr rfl))

/-- Settles O41: the map shows 0 at a reserved address. -/
theorem reservedReadsAreZero : Obligations.ReservedReadsAreZero := by
  refine ⟨fun a d s reserved => ⟨readOperation a, decode_read a d, readOperation_of_reserved reserved, ?_⟩,
    fun _ _ => rfl, fun _ _ => rfl, fun _ _ => rfl, fun _ _ => rfl⟩
  rw [exec_readOperation, regRead_reserved s a reserved]
  rfl

/-! ### Writes -/

/-- Settles O42. -/
theorem wrControlClearsAndReleases : Obligations.WrControlClearsAndReleases :=
  ⟨decode_write 0x01#8, fun v s => congrArg Host.Outcome.next (control_eq s v)⟩

/-- Settles O43. -/
theorem wrIgnoredChangesNothing : Obligations.WrIgnoredChangesNothing := by
  refine ⟨fun a v elsewhere => ?_, fun _ _ _ => rfl⟩
  rw [decode_write, if_neg elsewhere]

end Sys2Proof.Machine
end

section
/-! The step at the host's pins (43_host.md R210 to R213): which operations it runs and in which order, what its two outputs show, and
that the register operation comes before the byte operation, which HOLD of the state before the step refuses. -/

namespace Sys2Proof.Machine

/-! ### The operations of a step -/

theorem runKey_of_decode {k : OpKey} {i : Instr} (h : decode k = .ok i) (s : State) : runKey k s = exec i s := by
  unfold runKey
  rw [h]

/-- The three ways the pins choose the register operation: a write first, a read else, and none without either. -/
theorem runRegAccess_eq (p : Pins) (s : State) :
    (p.regWe = true → runRegAccess p s = runKey (.reg (1#1 ++ p.regAddr) p.regWdata) s)
    ∧ (p.regWe = false → p.regRe = true → runRegAccess p s = runKey (.reg (0#1 ++ p.regAddr) 0#32) s)
    ∧ (p.regWe = false → p.regRe = false → runRegAccess p s = .next s) := by
  refine ⟨fun write => ?_, fun noWrite read => ?_, fun noWrite noRead => ?_⟩
  · simp only [runRegAccess, regAccess, write, if_true]
    rfl
  · simp only [runRegAccess, regAccess, noWrite, read, if_true]
    rfl
  · simp only [runRegAccess, regAccess, noWrite, noRead]
    rfl

/-- A step without reset goes on with the byte operation from where its register operation ends. That one leaves in_ready as the
step began it, so HOLD of the state before the step decides whether the byte is accepted. -/
theorem step_of_runRegAccess {s t : State} (noReset : s.nextPins.rst = false)
    (run : runRegAccess s.nextPins s.beginStep = .next t) :
    step s = if s.nextPins.inValid && !s.hold then runKey (.byte (t.byteKey s.nextPins.inData)) t else .next t := by
  have ready : t.inReady = !s.hold := by
    rw [runRegAccess_next] at run
    obtain rfl : regAfter s.nextPins s.beginStep = t := Host.Outcome.next.inj run
    rw [regAfter_inReady, beginStep_eq, noReset, Bool.not_false, Bool.and_true]
  unfold step cycle
  rw [noReset, run, ← ready]
  rfl

/-- Settles O5: a decoded operation is what its key runs, and the decoder reads well-formed operations only. -/
theorem stepRunsTheDecodedOperations : Obligations.StepRunsTheDecodedOperations := by
  intro s p rest inputs s0
  have pins : s.nextPins = p := by simp [State.nextPins, inputs]
  have begun : s.beginStep = s0 := by rw [beginStep_eq, pins, inputs]; rfl
  subst pins
  refine ⟨fun reset => ?_, fun noReset t write read neither => ?_⟩
  · rw [← begun]
    unfold step cycle
    rw [reset]
    rfl
  · have run : runRegAccess s.nextPins s.beginStep = .next t := by
      rw [begun]
      obtain ⟨writes, reads, idles⟩ := runRegAccess_eq s.nextPins s0
      cases we : s.nextPins.regWe with
      | true =>
        obtain ⟨i, decoded, -, ran⟩ := write we
        rw [writes we, runKey_of_decode decoded, ran]
      | false =>
        cases re : s.nextPins.regRe with
        | true =>
          obtain ⟨i, decoded, -, ran⟩ := read we re
          rw [reads we re, runKey_of_decode decoded, ran]
        | false => rw [idles we re, neither we re]
    rw [step_of_runRegAccess noReset run]
    refine ⟨fun presented noHold => ?_, fun refused => ?_⟩
    · have decoded := decode_byteKey t s.nextPins.inData
      obtain ⟨wf, -⟩ := encodeOfDecodeIsTheKey _ _ decoded
      refine ⟨_, decoded, wf, ?_⟩
      rw [presented, noHold, ← runKey_of_decode decoded]
      rfl
    · rcases refused with noByte | held
      · simp [noByte]
      · simp [held]

/-- Settles O6. -/
theorem stepWithNoPinsLeftIsIdle : Obligations.StepWithNoPinsLeftIsIdle := by
  intro s inputs
  have pins : s.nextPins = idlePins := by simp [State.nextPins, inputs]
  have run : stepAfter s = regAfter s.nextPins s.beginStep := stepAfter_of_no_byte s (by rw [pins]; rfl) (by rw [pins]; rfl)
  rw [step_next, run, beginStep_eq, pins, inputs]
  simp [regAfter, idlePins]

/-! ### The outputs -/

/-- No byte operation writes an output. -/
theorem byteAfter_outputs (b : Byte) (s : State) :
    (byteAfter b s).inReady = s.inReady ∧ (byteAfter b s).regRdata = s.regRdata := by
  by_cases last : s.sync = syncInPayload ∧ s.pbc = 13#4
  · obtain ⟨inPayload, at13⟩ := last
    obtain ⟨-, frame⟩ := byteAfter_last_spec b s inPayload at13
    rw [frame]
    exact ⟨rfl, rfl⟩
  · rw [byteAfter_eq_of_not_last b s last]
    exact ⟨rfl, rfl⟩

/-- Without reset the outputs of a step are those of its register operation: a byte shows nothing on them. -/
theorem stepAfter_outputs {s : State} (noReset : s.nextPins.rst = false) :
    (stepAfter s).inReady = !s.hold ∧ (stepAfter s).regRdata = (regAfter s.nextPins s.beginStep).regRdata := by
  have ready : (regAfter s.nextPins s.beginStep).inReady = !s.hold := by
    rw [regAfter_inReady, beginStep_eq, noReset, Bool.not_false, Bool.and_true]
  cases accepted : s.accepts s.nextPins with
  | true =>
    obtain ⟨ready', data⟩ := byteAfter_outputs s.nextPins.inData (regAfter s.nextPins s.beginStep)
    rw [stepAfter_of_accepts s noReset accepted]
    exact ⟨ready'.trans ready, data⟩
  | false =>
    rw [stepAfter_of_no_byte s noReset accepted]
    exact ⟨ready, rfl⟩

/-- A write to CONTROL is WR_CONTROL, whatever else the pins are. -/
theorem regAfter_control {p : Pins} (write : p.regWe = true) (address : p.regAddr = 0x01#8) (s : State) :
    regAfter p s = (s.clearCommand p.regWdata).releaseCommand p.regWdata := by
  rw [regAfter, if_pos write, if_pos address]

/-- Only a read without a write sets reg_rdata (43_host.md R213). -/
theorem regAfter_regRdata (p : Pins) (s : State) :
    (regAfter p s).regRdata = if p.regRe && !p.regWe then s.regRead p.regAddr else s.regRdata := by
  cases we : p.regWe with
  | true =>
    rw [Bool.not_true, Bool.and_false]
    by_cases address : p.regAddr = 0x01#8
    · rw [regAfter_control we address, control_eq]
      rfl
    · simp [regAfter, we, address]
  | false => cases re : p.regRe <;> simp [regAfter, we, re]

/-- Settles O9. -/
theorem inReadyIsHoldClearAndNoReset : Obligations.InReadyIsHoldClearAndNoReset := by
  intro s t hstep
  obtain rfl : stepAfter s = t := stepAfter_eq_of_step hstep
  cases reset : s.nextPins.rst with
  | true =>
    rw [stepAfter_of_reset s reset]
    exact (Bool.and_false _).symm
  | false =>
    obtain ⟨ready, -⟩ := stepAfter_outputs reset
    rw [ready, Bool.not_false, Bool.and_true]

/-- Settles O10: the step's beginning changes no register, so the read sees the state before the step. -/
theorem regRdataIsTheMapOfThePreStepState : Obligations.RegRdataIsTheMapOfThePreStepState := by
  intro s
  refine ⟨stepAfter s, step_next s, ?_⟩
  cases reset : s.nextPins.rst with
  | true =>
    rw [stepAfter_of_reset s reset, Bool.not_true, Bool.and_false]
    rfl
  | false =>
    obtain ⟨-, data⟩ := stepAfter_outputs reset
    rw [data, regAfter_regRdata, Bool.not_false, Bool.and_true]
    rfl

/-! ### HOLD and the register operation's place before the byte -/

theorem accepts_eq_false_of_hold {s : State} (held : s.hold = true) (p : Pins) : s.accepts p = false := by
  simp [State.accepts, acceptsByte, held]

/-- Settles O11. -/
theorem byteRefusedUnderHoldChangesNothing : Obligations.ByteRefusedUnderHoldChangesNothing := by
  intro s held noReset noWrite
  obtain ⟨ready, -⟩ := stepAfter_outputs noReset
  refine ⟨stepAfter s, step_next s, ?_, by rw [ready, held]; rfl⟩
  rw [stepAfter_of_no_byte s noReset (accepts_eq_false_of_hold held _), regAfter_own_of_no_write _ _ noWrite,
    State.beginStep_own]

/-- Settles O12: HOLD of the state before the step refuses the byte, and 2 is RELEASE without CLEAR. -/
theorem releaseAcceptsNoByteInItsOwnStep : Obligations.ReleaseAcceptsNoByteInItsOwnStep := by
  intro s held noReset write address data
  refine ⟨stepAfter s, step_next s, ?_⟩
  rw [stepAfter_of_no_byte s noReset (accepts_eq_false_of_hold held _), regAfter_control write address, data, control_eq]
  rfl

/-- The last byte of a valid second half at CUC = 7 completes a cycle, whatever the flags were (41_decode.md R145, R148). -/
theorem byteAfter_completes {b : Byte} {s : State} (inPayload : s.sync = syncInPayload) (at13 : s.pbc = 13#4)
    (second : halfKind (s.pbuf.set 13 b) = .second) (seven : s.cuc = 7#5) :
    (byteAfter b s).frameReady = true ∧ (byteAfter b s).hold = true ∧ (byteAfter b s).cuc = 14#5 := by
  obtain ⟨effect, -⟩ := byteAfter_last_spec b s inPayload at13
  simp only [HalfFrameEffect, second] at effect
  obtain ⟨-, more, ready, hold⟩ := effect
  have fourteen : (byteAfter b s).cuc = 14#5 := (count_completes_iff (n := 7) (by rw [seven]; rfl) more).mpr rfl
  exact ⟨by simp [ready, fourteen], by simp [hold, fourteen], fourteen⟩

/-- Settles O13: the CONTROL write runs before the byte and touches nothing that the completion asks for. -/
theorem completionWinsOverSameStepClear : Obligations.CompletionWinsOverSameStepClear := by
  intro s b v rest inputs noHold inPayload at13 seven second
  have pins : s.nextPins = { bytePins b with regWe := true, regAddr := 0x01#8, regWdata := v } := by
    simp [State.nextPins, inputs]
  have noReset : s.nextPins.rst = false := by rw [pins]; rfl
  have byte : s.nextPins.inData = b := by rw [pins]; rfl
  have accepted : s.accepts s.nextPins = true := by
    rw [pins]
    simp [State.accepts, acceptsByte, bytePins, idlePins, noHold]
  refine ⟨stepAfter s, step_next s, ?_⟩
  rw [stepAfter_of_accepts s noReset accepted, byte]
  refine byteAfter_completes ?_ ?_ ?_ ?_
  · rwa [regAfter_sync]
  · rwa [regAfter_pbc]
  · rwa [regAfter_pbuf]
  · rwa [regAfter_cuc]

end Sys2Proof.Machine
end

section
/-! The block has no fault and no refusal (60_exceptions.md R240): every operation completes, also in a state whose key does not
select it, and so does every step. -/

namespace Sys2Proof.Machine

/-- No arm of exec looks at the state to decide whether it completes. -/
theorem exec_completes (i : Instr) (s : State) : ∃ t, exec i s = .next t := by
  cases i with
  -- the byte operations, an illegal SYNC and an overrun among them (40_sync.md R111 to R118)
  | byteIdleSync1 | byteIdleSkip | byteSync2 | byteSyncFail | bytePayloadAppend | bytePayloadLast | bytePayloadOverrun
  | byteIllegalState => exact ⟨_, rfl⟩
  -- the lane decode and the commits: an invalid half-frame is discarded, not signalled (41_decode.md R141 to R145)
  | decodeWord | hfDiscard | hfCommit0 | hfCommit1 => exact ⟨_, rfl⟩
  -- the register reads: a channel field that is no slot and a reserved address read too (42_store.md R184 to R187, R217)
  | rdStatus | rdChRaw | rdChOfs | rdChNormLo | rdChNormHi | rdReserved1E | rdReserved2E | rdReserved5C
  | rdReservedOther => exact ⟨_, rfl⟩
  -- the register writes and reset: a write to any other address than CONTROL's is ignored (43_host.md R215, R216)
  | wrControl | wrIgnored | reset => exact ⟨_, rfl⟩

/-- Settles O7: each operation by `exec_completes`; a step by `step_next`, since every key it forms matches a row. -/
theorem everyOperationAndStepAnswersNext : Obligations.EveryOperationAndStepAnswersNext :=
  ⟨exec_completes, fun s => ⟨stepAfter s, step_next s⟩⟩

end Sys2Proof.Machine
end

section
/-! Reset, and the block under HOLD (70_reset_and_hazards.md R270, R277): what a reset step leaves, and what a step can still do
while HOLD is 1. -/

namespace Sys2Proof.Machine

/-! ### Reset -/

/-- Neither the parameter nor the coming pins is an element that R270 resets (log 2). -/
theorem hasResetValues_of_reset (policy : Id0Policy) (pins : List Pins) :
    { State.reset with id0Policy := policy, inputs := pins }.HasResetValues := by
  have payload (j : Nat) (hj : j < 14) : clearedPayload[j] = 0x00#8 := Vector.getElem_replicate hj
  have slot (c : Nat) (hc : c < 14) : nonePopulated[c] = false ∧ allMissing[c] = 0#11 :=
    ⟨Vector.getElem_replicate hc, Vector.getElem_replicate hc⟩
  exact ⟨rfl, rfl, payload, slot, rfl, rfl, rfl⟩

/-- Every field of STATUS is 0 at reset (10_state.md R32). -/
theorem State.HasResetValues.statusReg {s : State} (h : s.HasResetValues) : s.statusReg = 0x00000000#32 := by
  obtain ⟨sync, pbc, -, slots, cuc, ready, hold⟩ := h
  have mask : s.popMask = 0#14 := by
    apply BitVec.eq_of_getLsbD_eq
    intro c hc
    obtain ⟨unpopulated, -⟩ := slots c hc
    rw [s.popMask_getLsbD hc, s.populated_eq_getElem hc, unpopulated, BitVec.getLsbD_zero]
  rw [State.statusReg, mask, cuc, pbc, sync, hold, ready]
  rfl

/-- Settles O45: RESET and a reset step both leave `State.reset` but for the parameter and the coming pins. -/
theorem resetStepTakesEveryResetValue : Obligations.ResetStepTakesEveryResetValue := by
  refine ⟨decode_rst, fun s => ⟨_, rfl, hasResetValues_of_reset s.id0Policy s.inputs, rfl, rfl⟩, fun s reset => ?_⟩
  have values := hasResetValues_of_reset s.id0Policy s.inputs.tail
  refine ⟨stepAfter s, step_next s, ?_⟩
  rw [stepAfter_of_reset s reset]
  exact ⟨values, rfl, rfl, values.statusReg⟩

/-- Settles O46. -/
theorem resetStateHoldsTheSpecsValues : Obligations.ResetStateHoldsTheSpecsValues :=
  have values : State.reset.HasResetValues := hasResetValues_of_reset .replace []
  ⟨values, values.statusReg, rfl⟩

/-! ### The block under HOLD -/

/-- Of the block's own state a register operation writes the two flags only. -/
theorem regAfter_own_eq (p : Pins) (s : State) :
    (regAfter p s).own = (s.own.setFrameReady (regAfter p s).frameReady).setHold (regAfter p s).hold :=
  congrArg State.own (regAfter_eq p s)

/-- HOLD refuses the byte, and without RELEASE the register operation leaves HOLD as it is, so that only FRAME_READY is left to
write (R277). -/
theorem stepAfter_own_of_hold {s : State} (held : s.hold = true) (noReset : s.nextPins.rst = false)
    (noRelease : s.nextPins.commands 1 = false) :
    (stepAfter s).own = s.own.setFrameReady (stepAfter s).frameReady := by
  have kept : (regAfter s.nextPins s.beginStep).hold = s.beginStep.hold := by
    obtain ⟨-, hold⟩ := regAfter_flags s.nextPins s.beginStep noReset
    rw [hold, noRelease, Bool.not_false, Bool.and_true]
  rw [stepAfter_of_no_byte s noReset (accepts_eq_false_of_hold held _), regAfter_own_eq, kept]
  rfl

/-- The step lemma of R277: in_ready shows 0, HOLD stays 1 and the rest of the block's own state stays but for FRAME_READY. -/
theorem stepAfter_of_hold {s : State} (held : s.hold = true) (noReset : s.nextPins.rst = false)
    (noRelease : s.nextPins.commands 1 = false) :
    (stepAfter s).hold = true ∧ (stepAfter s).inReady = false
    ∧ (stepAfter s).own.setFrameReady s.frameReady = s.own := by
  have own := stepAfter_own_of_hold held noReset noRelease
  obtain ⟨ready, -⟩ := stepAfter_outputs noReset
  exact ⟨(congrArg State.hold own).trans held, by rw [ready, held]; rfl, congrArg (·.setFrameReady s.frameReady) own⟩

/-- `stepAfter_of_hold` along a run. That in_ready is 0 at the end is due to the last step or, in a run of no steps, was so
before. -/
theorem runPins_of_hold (ps : List Pins) {s : State} (held : s.hold = true)
    (noCommand : ∀ p ∈ ps, p.rst = false ∧ p.commands 1 = false) :
    ∃ t, runPins ps s = .next t ∧ t.own.setFrameReady s.frameReady = s.own
      ∧ (s.inReady = false ∨ ps ≠ [] → t.inReady = false) := by
  induction ps generalizing s with
  | nil => exact ⟨_, runPins_nil s, rfl, fun ready => ready.resolve_right (· rfl)⟩
  | cons p ps ih =>
    obtain ⟨⟨noReset, noRelease⟩, noCommand'⟩ := List.forall_mem_cons.mp noCommand
    obtain ⟨held', ready, own⟩ := stepAfter_of_hold (s := s.setInputs (p :: ps)) held noReset noRelease
    obtain ⟨t, run, rest, stalled⟩ := ih held' noCommand'
    exact ⟨t, (runPins_cons p ps s).trans run, (congrArg (·.setFrameReady s.frameReady) rest).trans own,
      fun _ => stalled (.inl ready)⟩

/-- Settles O55: HOLD itself is part of the own state that `runPins_of_hold` keeps. -/
theorem holdStallsTheBlockUntilReleaseOrReset : Obligations.HoldStallsTheBlockUntilReleaseOrReset := by
  intro ps s held noCommand
  obtain ⟨t, run, own, ready⟩ := runPins_of_hold ps held noCommand
  exact ⟨t, run, (congrArg State.hold own).trans held, fun steps => ready (.inr steps), own⟩

end Sys2Proof.Machine
end
